-- ==== Sys2Proof/Word.lean ====
section
/-! DEFINITION. The word types of the HS4, one name per width of spec/11 R195 and spec/00 "Terms". -/

namespace Sys2Proof

/-- One byte of a frame, of the configuration block or of a chunk. -/
abbrev Byte := BitVec 8
/-- A 32-bit value; sums, products and differences wrap (spec/00, "Arithmetic"). -/
abbrev Word := BitVec 32
/-- A station's 16-bit number (spec/00, "tag"). -/
abbrev Tag := BitVec 16
/-- A 16-bit request number (R186). -/
abbrev ReqNumber := BitVec 16
/-- An Ethernet station address, 48 bits. -/
abbrev Mac := BitVec 48
/-- The 128-bit name of a chunk (R8). -/
abbrev Print := BitVec 128
/-- The low 64 bits of the print of a photo's first chunk (R71). -/
abbrev PhotoId := BitVec 64
/-- A client's 64-bit object id (R64). -/
abbrev ObjectId := BitVec 64
/-- The 2,048-bit summary carried in DOZE (R153). -/
abbrev Digest := BitVec 2048
/-- A disk port and member slot, 0..3 (R34, R41). -/
abbrev DiskPort := Fin 4
/-- A session number and cutting context number, 0..3 (R4, R60). -/
abbrev SessionNo := Fin 4
/-- A fetch context, 0 or 1 (R103). -/
abbrev FetchNo := Fin 2
/-- A chunk buffer of the pool, 0..63 (R12). -/
abbrev BufferNo := Fin 64
/-- A proxy slot, 0..7 (R155). -/
abbrev ProxyNo := Fin 8
/-- A timer of the array, 0..24 (spec/10). -/
abbrev TimerNo := Fin 25

end Sys2Proof
end

