-- ==== Sys2Proof/Terms.lean ====
section
/-! DEFINITION. The terms that commands and stored records share: chunks, requests, claims, settles, reads, places. -/

namespace Sys2Proof

/-- A chunk is named by its print and its length (R8); a recipe element is the same pair (R195). -/
structure ChunkId where
  print : Print
  length : Nat
  deriving DecidableEq, Repr, Inhabited

/-- Where a request came from and how its answer finds the way back (R186, R190). -/
structure ReqHdr where
  tag : Tag
  box : Bool
  number : ReqNumber
  mac : Mac
  deriving DecidableEq, Repr, Inhabited

/-- A received Ethernet frame whose frame check held: its frame type, its source address and the bytes
after the frame type (R186). -/
structure RxFrame where
  frameType : BitVec 16
  source : Mac
  bytes : List Byte
  deriving DecidableEq, Repr, Inhabited

/-- What OPEN_SESSION asks for (R62). -/
inductive OpenKind where
  | backup
  | album (number : Nat) (title : Option (List Byte))
  deriving DecidableEq, Repr, Inhabited

/-- The result codes of a REPLY (spec/11, "Result codes"). -/
inductive Code where
  | ok | busy | badRequest | notPermitted | noSession | sessionOpen | sessionsFull | clientsFull
  | nameTaken | draftFull | quota | duplicate | gap | short | long | noSpace | indexFull | recipeFull
  | catalogFull | storeFailed | damaged | notHeld | waking | notFound | unconfigured | halted
  deriving DecidableEq, Repr, Inhabited

/-- Copies wanted by a claim (R21). -/
inductive CopiesWanted where
  | one | two
  deriving DecidableEq, Repr, Inhabited

/-- Copy A or copy B of an index entry (R18). -/
inductive CopySide where
  | a | b
  deriving DecidableEq, Repr, Inhabited

/-- Who presents a claim: an object's element or a fetch's element (R21). -/
inductive Claimant where
  | session (s : SessionNo) (serial : Word) (pos : Nat)
  | fetch (f : FetchNo) (serial : Word) (pos : Nat)
  deriving DecidableEq, Repr, Inhabited

/-- A CLAIM; the intent is always INTAKE (R21). -/
structure Claim where
  id : ChunkId
  wanted : CopiesWanted
  claimant : Claimant
  buffer : Option BufferNo
  deriving DecidableEq, Repr, Inhabited

/-- Outcomes of a claim (R21). -/
inductive ClaimResult where
  | hit | hitUnsettled | revive | miss | needsBytes | indexFull
  deriving DecidableEq, Repr, Inhabited

/-- What a settle report says of the entry; LOST carries its cause (R30). -/
inductive Settled where
  | stored | lostNoSpace | lostWriteFailed
  deriving DecidableEq, Repr, Inhabited

/-- The three purposes of a RECOPY, with REPLACE split by side (R33). -/
inductive RecopyPurpose where
  | replaceA | replaceB | addB | replaceAll
  deriving DecidableEq, Repr, Inhabited

/-- Which work of the verify unit sent a RECOPY (R121, R125). -/
inductive RecopySender where
  | record | job
  deriving DecidableEq, Repr, Inhabited

/-- A RECOPY with its lent buffer (R33). -/
structure Recopy where
  id : ChunkId
  purpose : RecopyPurpose
  buffer : BufferNo
  sender : RecopySender
  deriving DecidableEq, Repr, Inhabited

/-- The index's answers to a RECOPY (R33). -/
inductive RecopyResult where
  | done | unmirrored | failed | superseded | absent
  deriving DecidableEq, Repr, Inhabited

/-- Which form of read a chunk or recipe request used (R188). -/
inductive ReadForm where
  | restore | album | print
  deriving DecidableEq, Repr, Inhabited

/-- The requester of a verified read and the form it asked in (spec/06, VREAD). -/
structure Reader where
  hdr : ReqHdr
  form : ReadForm
  deriving DecidableEq, Repr, Inhabited

/-- The four outcomes of a verified read (spec/06, VREAD). -/
inductive VreadOutcome where
  | good (bytes : List Byte)
  | damaged | busy | absent
  deriving DecidableEq, Repr, Inhabited

/-- Service classes of disk commands, highest first (R49). -/
inductive ServiceClass where
  | serve | metadata | store | copying | scrub
  deriving DecidableEq, Repr, Inhabited

/-- A stored copy's place: member number and first block (R18). -/
structure Place where
  member : Nat
  first : Nat
  deriving DecidableEq, Repr, Inhabited

/-- An HS4 label: store identity and member number (R34). -/
structure DiskLabel where
  store : Mac
  member : Nat
  deriving DecidableEq, Repr, Inhabited

/-- The fields of a root block (R133). -/
structure Root where
  marker : Bool
  store : Mac
  member : Nat
  generation : Word
  capacity : Nat
  pageCount : Nat
  imageCrc : Word
  rootCrc : Word
  deriving DecidableEq, Repr, Inhabited

end Sys2Proof
end

