-- ==== Sys2Proof/Image.lean ====
section
/-! DEFINITION. The records the metadata image saves (R131, R132), and the image: what a checkpoint writes and a cold
start reads back. -/

namespace Sys2Proof.Machine

/-! ### The chunk index (spec/02) -/

/-- States of an index entry (R18). -/
inductive EntryState where
  | writing | stored | doubtful | lost
  deriving DecidableEq, Repr, Inhabited

/-- An index entry as the image holds it (R132): what R18 lets the image save. -/
structure ImageEntry where
  id : ChunkId
  state : EntryState
  mark : Bool
  count : Nat
  copyA : Option Place
  copyB : Option Place
  deriving DecidableEq, Repr, Inhabited

/-- An extent: where a recipe lies and its element count (R39). -/
structure Extent where
  place : Place
  count : Nat
  deriving DecidableEq, Repr, Inhabited

/-- Progress of one recipe extent (R39): `out` WRITEs outstanding, `bad` when one of them ended other than
DONE, `again` on the second placement. -/
inductive ExtentState where
  | absent
  | writing (place : Place) (count : Nat) (elements : List ChunkId) (out : Nat) (bad again : Bool)
  | written (e : Extent)
  | failed
  deriving DecidableEq, Repr, Inhabited

/-! ### The session manager (spec/04) -/

/-- Session kinds (R60). -/
inductive SessionKind where
  | backup
  | album (number : Nat) (title : Option (List Byte))
  deriving DecidableEq, Repr, Inhabited

/-- Session states (R60). -/
inductive SessionState where
  | idle | intake | finishing | closing
  deriving DecidableEq, Repr, Inhabited

/-- An element's standing at its object (R64, R132): its outcome not yet recorded, a reference held and settled or
waiting for a settle report, no reference, or marked. In the image a held reference stands as settled. -/
inductive ElemStanding where
  | unrecorded
  | settled
  | waiting
  | none
  | marked
  deriving DecidableEq, Repr, Inhabited

/-- An element of an object under intake. -/
structure ObjElem where
  id : ChunkId
  standing : ElemStanding
  deriving DecidableEq, Repr, Inhabited

/-- The object under intake (R64); `ended` says CTX_END has been sent, `cut` that "object cut" has been
reported (R70). -/
structure CurrentObject where
  id : ObjectId
  serial : Word
  declared : Nat
  received : Nat
  caption : Option (List Byte)
  photo : Option PhotoId
  elems : List ObjElem
  ended : Bool
  cut : Bool
  deriving DecidableEq, Repr, Inhabited

/-- A draft object (R74); `turned` is the turned-over standing, set when the catalog has finished the object at turnover
(R132). -/
structure DraftObject where
  id : ObjectId
  length : Nat
  elems : List ObjElem
  photo : PhotoId
  caption : Option (List Byte)
  turned : Bool
  deriving DecidableEq, Repr, Inhabited

/-- A close in progress (R75, R76): the request to answer, the extents in draft order, the failure if one
is known, and after turnover the snapshot number and the positions of the photos made. -/
structure Closing where
  hdr : ReqHdr
  extents : List ExtentState
  failure : Option Code
  turned : Bool
  snapshot : Word
  made : List Nat
  deriving DecidableEq, Repr, Inhabited

/-- A session table entry (R60). `entering` is the SEGMENT being entered and `ending` the END_OBJECT being
served (R61, R66, R70). -/
structure Session where
  tag : Tag
  kind : SessionKind
  state : SessionState
  current : Option CurrentObject
  failed : Option (ObjectId × Code)
  draft : List DraftObject
  reservations : Nat
  entering : Option ReqHdr
  ending : Option ReqHdr
  closing : Option Closing
  deriving DecidableEq, Repr, Inhabited

/-- An object record of a snapshot (R76). -/
structure ObjectRecord where
  id : ObjectId
  length : Nat
  chunks : Nat
  extent : Option Extent
  deriving DecidableEq, Repr, Inhabited

/-- A snapshot (R80). -/
structure Snapshot where
  number : Word
  retiring : Bool
  logical : Nat
  objects : List ObjectRecord
  deriving DecidableEq, Repr, Inhabited

/-- A client table entry (R63). -/
structure Client where
  tag : Tag
  quota : Nat
  used : Nat
  reserved : Nat
  retention : Nat
  lastSnapshot : Word
  snapshots : List Snapshot
  deriving DecidableEq, Repr, Inhabited

/-- An item of the retirement queue with its cursor (R81, R82, R84). -/
structure RetireItem where
  client : Tag
  snapshot : Word
  blocked : Bool
  object : Nat
  element : Nat
  deriving DecidableEq, Repr, Inhabited

/-! ### The album catalog (spec/05) -/

/-- States of a photo entry (R89). -/
inductive PhotoState where
  | held | known | wanted | fetching
  deriving DecidableEq, Repr, Inhabited

/-- A photo entry with its holder list (R89, R90). -/
structure Photo where
  album : Nat
  id : PhotoId
  origin : Tag
  seq : Nat
  length : Nat
  caption : Option (List Byte)
  state : PhotoState
  holders : List Tag
  more : Bool
  extent : Option Extent
  deriving DecidableEq, Repr, Inhabited

/-- An origin table entry (R91). -/
structure Origin where
  tag : Tag
  caughtUp : Nat
  deriving DecidableEq, Repr, Inhabited

/-- Phases of a fetch (R103). -/
inductive FetchPhase where
  | recipe | chunks | settling | extent | announcing
  deriving DecidableEq, Repr, Inhabited

/-- An element's standing at its fetch (R103, R132): unclaimed, its outcome not yet recorded; held and settled; held and
waiting for a settle report; or answered NEEDS_BYTES, with no reference. In the image a held element stands as settled. -/
inductive FetchStanding where
  | unclaimed | settled | waiting | bare
  deriving DecidableEq, Repr, Inhabited

/-- An element of a fetch. -/
structure FetchElem where
  id : ChunkId
  standing : FetchStanding
  deriving DecidableEq, Repr, Inhabited

/-- Request kinds of the outgoing table (R192). -/
inductive AskKind where
  | getRecipe | getChunk | catalogSince
  deriving DecidableEq, Repr, Inhabited

/-- A fetch (R103). `more` says that recipe pages remain. -/
structure Fetch where
  serial : Word
  photo : Nat
  source : Tag
  phase : FetchPhase
  count : Nat
  caption : Option (List Byte)
  elems : List FetchElem
  next : Nat
  outstanding : Option AskKind
  buffer : Option BufferNo
  more : Bool
  extent : ExtentState
  deriving DecidableEq, Repr, Inhabited

/-! ### The image (spec/07) -/

/-- The metadata image, section by section (R131): the index entries in image form by position (R132); the members with
their numbers and whether they are PRESENT (R34). -/
structure Image where
  capacity : Nat
  entries : List (Nat × ImageEntry)
  members : List (Option (Nat × Bool))
  store : Mac
  highest : Nat
  clients : List (Option Client)
  sessions : List (Option Session)
  retire : List RetireItem
  titles : List (Option (List Byte))
  photos : List Photo
  origins : List Origin
  ownCounter : Nat
  fetches : List (Option Fetch)
  scrubCursor : Nat
  deriving DecidableEq, Repr, Inhabited

end Sys2Proof.Machine
end

