-- ==== Sys2Proof/Syntax.lean ====
section
/-! DEFINITION. The commands of the HS4: one constructor of `Instr` per row of spec/opcode_table.json,
with the operand types they carry. -/

namespace Sys2Proof

/-- What a WRITE takes from its requester's area (R43): of a chunk buffer its first `length` bytes and then `zeros` zero bytes,
which fill out the last block (R28). -/
inductive Area where
  | buffer (b : BufferNo) (length zeros : Nat)
  | elements (es : List ChunkId)
  | imagePages (image : Machine.Image) (first count : Nat)
  | root (r : Root)
  | label (l : DiskLabel)
  deriving DecidableEq, Repr, Inhabited

/-- The queued disk commands (R43); STANDBY is the port's own and is not queued. -/
inductive DiskOp where
  | read (first count : Nat)
  | write (first count : Nat) (area : Area)
  | flush
  deriving DecidableEq, Repr, Inhabited

/-- What a recipe read is for: a page of GET_RECIPE, or the element of a GET_CHUNK
(R86, R87, R110, R111). -/
inductive RecipeUse where
  | page (take : Nat) (more : Bool) (head : List Byte)
  | chunk
  deriving DecidableEq, Repr, Inhabited

/-- A recipe read in flight: whom to answer, in which form, how many elements of the blocks read stand
before the first one wanted, and what follows. -/
structure RecipeJob where
  hdr : ReqHdr
  form : ReadForm
  skip : Nat
  use : RecipeUse
  deriving DecidableEq, Repr, Inhabited

/-- A verified read whose copy READ is in flight (R116): the chunk, its class, its reader, the copies
READ_BEGIN gave, the mark, the copy being read and the copies tried. -/
structure VreadJob where
  id : ChunkId
  cls : ServiceClass
  reader : Reader
  copyA : Option Place
  copyB : Option Place
  mark : Bool
  side : CopySide
  tried : List CopySide
  deriving DecidableEq, Repr, Inhabited

/-- A record's READ of a copy for its waiters (R116, R122): the copies and the mark READ_BEGIN gave, the copy being read and
the copies tried. -/
structure ServeJob where
  id : ChunkId
  copyA : Option Place
  copyB : Option Place
  mark : Bool
  side : CopySide
  tried : List CopySide
  deriving DecidableEq, Repr, Inhabited

/-- Who offered a disk command and what its outcome belongs to; a checkpoint's commands carry the generation they write,
so that an outcome that comes after its checkpoint is known as late (R137). -/
inductive Requester where
  | chunkWrite (id : ChunkId) (side : CopySide)
  | recopyWrite (id : ChunkId) (side : CopySide)
  | closeExtent (s : SessionNo) (object : Nat)
  | fetchExtent (f : FetchNo)
  | recipeRead (job : RecipeJob)
  | retirePage
  | vread (job : VreadJob)
  | recordRead (id : ChunkId) (side : CopySide)
  | recordServe (job : ServeJob)
  | remirrorRead (id : ChunkId)
  | scrubRead (id : ChunkId) (side : CopySide)
  | labelRead
  | labelWrite
  | rootRead (half : Bool)
  | imageRead
  | ckptPages (gen : Word) (count : Nat)
  | ckptFirstFlush (gen : Word)
  | ckptRoot (gen : Word)
  | ckptLastFlush (gen : Word)
  deriving DecidableEq, Repr, Inhabited

/-- A disk command as a block offers it to a port (spec/03, "Disk commands"). -/
structure DiskCmd where
  requester : Requester
  cls : ServiceClass
  op : DiskOp
  deriving DecidableEq, Repr, Inhabited

/-- What a successful READ brought. Blocks whose byte layout the spec gives arrive as bytes; a label block
and a root block arrive as the fields the spec names, or none where the block holds no such thing; image pages arrive as
those pages of an image (log 10). -/
inductive ReadData where
  | nothing
  | bytes (bs : List Byte)
  | label (l : Option DiskLabel)
  | root (r : Option Root)
  | pages (i : Machine.Image)
  deriving DecidableEq, Repr, Inhabited

/-- The end of an attempt as the disk reports it (R50): the number of the attempt it belongs to (log 37), and whether it
completed without an error of disk or link. -/
structure AttemptEnd where
  attempt : Nat
  good : Bool
  deriving DecidableEq, Repr, Inhabited

/-- The final outcome of a disk command (R53). -/
inductive DiskResult where
  | done | failed | diskFault | skipped
  deriving DecidableEq, Repr, Inhabited

/-- A part of the image a change touches, small enough to lie on one page (R131, R136): an index position, the member table,
a client and each of its snapshots and object records, a session and each object of its draft, an element slot of a
session's object (`draft.length` for the one under intake) or of a fetch (R73), an item of the retirement queue, and so on;
moves of the scrub cursor are not reported (R134). -/
inductive ImagePart where
  | index (pos : Nat)
  | members
  | client (i : Nat)
  | snapshot (i number : Nat)
  | objectRecord (i number object : Nat)
  | session (s : Nat)
  | draft (s object : Nat)
  | element (s object pos : Nat)
  | retirement (client snapshot : Nat)
  | album (n : Nat)
  | photo (n : Nat)
  | origin (n : Nat)
  | ownCounter
  | fetch (f : Nat)
  | fetchElement (f pos : Nat)
  | scrub
  deriving DecidableEq, Repr, Inhabited

/-- Who waits for a checkpoint (R134); `coldStart` is the start checkpoint of R143. -/
inductive Closer where
  | session (s : SessionNo)
  | fetch (f : FetchNo)
  | power
  | coldStart
  deriving DecidableEq, Repr, Inhabited

/-- The two owners the fence stops (R135). -/
inductive FenceOwner where
  | sessions | catalog
  deriving DecidableEq, Repr, Inhabited

/-- The blocks that take requests from the intake queue (R188). -/
inductive ReqOwner where
  | sessions | catalog | report
  deriving DecidableEq, Repr, Inhabited

/-- One constructor per row of spec/opcode_table.json. -/
inductive Instr where
  /-- POWER_ON_RESET: what the flash and the DRAM device answer (R162, R196, R140). -/
  | powerOnReset (flash : Option (List Byte)) (dram : Option Nat)
  /-- DISK_DETECT: the port and the capacity its disk reports, or no device (R42). -/
  | diskDetect (d : DiskPort) (capacity : Option Nat)
  | rootReadStart
  | intakeArrival (f : RxFrame)
  | ownerReady (o : ReqOwner)
  | openSession (h : ReqHdr) (kind : OpenKind)
  | beginObject (h : ReqHdr) (object : ObjectId) (declared : Nat) (caption : Option (List Byte))
  | segment (h : ReqHdr) (object : ObjectId) (offset : Nat) (bytes : List Byte)
  | endObject (h : ReqHdr) (object : ObjectId)
  | closeSession (h : ReqHdr)
  | abandonSession (h : ReqHdr)
  | listSnapshots (h : ReqHdr)
  | listObjects (h : ReqHdr) (snapshot : Word) (first : Nat)
  | dropSnapshot (h : ReqHdr) (snapshot : Word)
  | getRecipeSnapshot (h : ReqHdr) (snapshot : Word) (object : ObjectId) (first : Nat)
  | getChunkSnapshot (h : ReqHdr) (snapshot : Word) (object : ObjectId) (index : Nat)
  | listAlbum (h : ReqHdr) (album : Nat) (first : Nat)
  | getRecipeAlbum (h : ReqHdr) (album : Nat) (photo : PhotoId) (first : Nat)
  | getChunkAlbum (h : ReqHdr) (album : Nat) (photo : PhotoId) (index : Nat)
  | getChunkPrint (h : ReqHdr) (id : ChunkId)
  | catalogSince (h : ReqHdr) (origin : Tag) (after : Nat)
  | queryStation (h : ReqHdr)
  | clearFlags (h : ReqHdr) (mask : Byte)
  | setConfig (h : ReqHdr) (block : List Byte) (mask : Word)
  /-- SET_CONFIG_WRITE_DONE: the 48 bytes read back, or no answer from the flash (R199). -/
  | setConfigWriteDone (readBack : Option (List Byte))
  | presence (f : RxFrame)
  | doze (f : RxFrame)
  | wake (f : RxFrame)
  | holding (f : RxFrame)
  | replyFrame (f : RxFrame)
  | dataFrame (f : RxFrame)
  | replyTimerExpiry
  | txFrameSent
  | phyLinkState (up : Bool)
  | listenerWake (f : RxFrame)
  | buttonPress
  | sleepDelayExpiry
  | dozeHoldExpiry
  | quiet
  | saved
  | parked (d : DiskPort)
  | parkFailed (d : DiskPort)
  | parkFinal
  | wakeStabStage1Expiry
  | wakeStabStage2Expiry
  | pllLock
  | sxtStopDetected
  | sxtRestartAttempt
  /-- SXT_RESTART_RESULT: whether SXT ran its 32,768 periods without a gap of 8 (R178). -/
  | sxtRestartResult (ran : Bool)
  | timerTick
  | timerStart (t : TimerNo) (count : Int) (second : Int)
  | timerStop (t : TimerNo)
  | timerExtend (t : TimerNo) (n : Int)
  | beaconExpiry
  | silenceExpiry
  | proxyStage1Expiry (p : ProxyNo)
  | proxyStage2Expiry (p : ProxyNo)
  | wantedExpiry
  | catchupStart
  | sessionIdleExpiry (s : SessionNo)
  | diskIdleExpiry (d : DiskPort)
  | scrubExpiry
  | checkpointExpiry
  | ctxBind (s : SessionNo)
  | ctxOpen (s : SessionNo) (serial : Word)
  | ctxEnter (s : SessionNo) (bytes : List Byte)
  | ctxEnd (s : SessionNo)
  | ctxDiscard (s : SessionNo)
  | ctxUnbind (s : SessionNo)
  | bufferGrant (b : BufferNo)
  | segmentEntered (s : SessionNo) (serial : Word)
  | objectCut (s : SessionNo) (serial : Word)
  | claimOutcome (s : SessionNo) (serial : Word) (pos : Nat) (id : ChunkId) (r : ClaimResult)
  | sessionSettleReport (id : ChunkId) (r : Settled)
  | vreadAnswer (reader : Reader) (o : VreadOutcome)
  | fetchClaimOutcome (f : FetchNo) (serial : Word) (pos : Nat) (id : ChunkId) (r : ClaimResult)
  | fetchSettleReport (id : ChunkId) (r : Settled)
  | claim (c : Claim)
  | drop (id : ChunkId)
  | mark (id : ChunkId)
  | lookup (id : ChunkId)
  | readBegin (id : ChunkId)
  | readEnd (id : ChunkId)
  | suspect (id : ChunkId) (side : CopySide)
  | condemn (id : ChunkId)
  | recopy (r : Recopy)
  | commandOffer (d : DiskPort) (cmd : DiskCmd)
  | spinupReady (d : DiskPort)
  | spinupWatchExpiry (d : DiskPort)
  /-- DISK_COMMAND_REPORT: the attempt that ended and how, and what a READ brought (R50). -/
  | diskCommandReport (d : DiskPort) (ended : AttemptEnd) (data : ReadData)
  | commandWatchExpiry (d : DiskPort)
  | park (d : DiskPort)
  | unpark (d : DiskPort)
  | vread (id : ChunkId) (cls : ServiceClass) (reader : Reader)
  | recopyAnswer (sender : RecopySender) (id : ChunkId) (buffer : BufferNo) (r : RecopyResult)
  | verifySettleReport (id : ChunkId) (r : Settled)
  | removalNotice (id : ChunkId)
  | peerRepairStart
  | remirrorJobStart
  | hush
  | unhush
  | changeReport (part : ImagePart)
  | checkpointRequest (closer : Option Closer)
  | hold
  | fence (o : FenceOwner)
  | fenceBack (o : FenceOwner)
  | fenceRelease (o : FenceOwner)
  | parkSave
  | parkSaveWithdraw
  | spinUpError (d : DiskPort)
  deriving DecidableEq, Repr

end Sys2Proof
end

