-- ==== Sys2Proof/Decode.lean ====
section
/-! DEFINITION. Words of commands. The rows of spec/opcode_table.json give no bits: no word spells a command (log 2). -/

namespace Sys2Proof

/-- The command a word spells by the table's bits: none, since no row of the table gives any bit (log 2). -/
def decodeTableWord (_nbits _w : Nat) : Option Instr := none

end Sys2Proof
end

