-- ==== Sys2Proof/Machine/Records.lean ====
section
/-! DEFINITION. The records the blocks of the HS4 keep, as plain data: one structure per table entry the
spec lays out. State.lean gathers them. -/

namespace Sys2Proof.Machine

/-! ### Timers (spec/10) -/

/-- Timer modes (R183). -/
inductive TimerMode where
  | oneShot | twoStage | periodic
  deriving DecidableEq, Repr, Inhabited

/-- Tick bases (R180). -/
inductive TickBase where
  | cycle | fine | coarse
  deriving DecidableEq, Repr, Inhabited

/-- Stage 1 or 2; stage 1 for timers without stages (R179). -/
inductive Stage where
  | first | second
  deriving DecidableEq, Repr, Inhabited

/-- The part of a timer's record that a restore point saves (R179, R183). -/
structure TimerCore where
  running : Bool
  stage : Stage
  remaining : Nat
  secondCount : Nat
  reload : Nat
  deriving DecidableEq, Repr, Inhabited

/-- A timer's record: its core, the restore points of its pending expiries, oldest first, and whether it
is held (R179). -/
structure Timer where
  core : TimerCore
  pending : List TimerCore
  held : Bool
  deriving DecidableEq, Repr, Inhabited

/-! ### Chunk engine (spec/01) -/

/-- The running print of a context: the eight hash words, the bytes of the block not yet full, and the
count of bytes absorbed (R5, R8). -/
structure RunningPrint where
  words : List Word
  tail : List Byte
  count : Nat
  deriving DecidableEq, Repr, Inhabited

/-- States of a cutting context (R4). -/
inductive CtxState where
  | free | ready | cutting | stalled
  deriving DecidableEq, Repr, Inhabited

/-- A cutting context (R4, R5, R13); `serial` is the object serial its claims carry (R9, R64). -/
structure Context where
  state : CtxState
  serial : Word
  sum : Word
  delay : List Byte
  len : Nat
  hash : RunningPrint
  buffer : Option BufferNo
  remainder : List Byte
  deriving DecidableEq, Repr, Inhabited

/-- Who holds a lent buffer or waits for one (R12). `index` is a buffer that passed with a claim or a
RECOPY. -/
inductive Borrower where
  | context (s : SessionNo)
  | fetch (f : FetchNo)
  | record (id : ChunkId)
  | job
  | index
  deriving DecidableEq, Repr, Inhabited

/-- A buffer is free, lent, or released while waiters stand in the order and not yet granted (R12). -/
inductive BufferState where
  | free
  | granting
  | lent (who : Borrower)
  deriving DecidableEq, Repr, Inhabited

/-- A chunk buffer and the bytes written into it from position 0 (R6, R12). -/
structure Buffer where
  state : BufferState
  bytes : List Byte
  deriving DecidableEq, Repr, Inhabited

/-! ### Chunk index (spec/02) -/

/-- Progress of one new copy of a write record or recopy record (R18, R29): its place and whether it is
the second attempt. -/
inductive NewCopy where
  | unwanted
  | inWrite (p : Place) (again : Bool)
  | written (p : Place)
  | abandoned
  deriving DecidableEq, Repr, Inhabited

/-- The write record of a WRITING entry (R18). `prior` is the state before a revive, none for a MISS
(R132); `issued` says that some WRITE was issued, `refused` that a placement was refused for want of space
(R18, R30). -/
structure WriteRec where
  buffer : BufferNo
  wanted : CopiesWanted
  newA : NewCopy
  newB : NewCopy
  oldA : Option Place
  oldB : Option Place
  prior : Option EntryState
  issued : Bool
  refused : Bool
  deriving DecidableEq, Repr, Inhabited

/-- The recopy record (R18, R33). -/
structure RecopyRec where
  purpose : RecopyPurpose
  buffer : BufferNo
  sender : RecopySender
  newA : NewCopy
  newB : NewCopy
  superseded : Bool
  deriving DecidableEq, Repr, Inhabited

/-- An index entry with its working parts (R18). -/
structure Entry where
  id : ChunkId
  state : EntryState
  mark : Bool
  count : Nat
  copyA : Option Place
  copyB : Option Place
  write : Option WriteRec
  holds : Nat
  recopy : Option RecopyRec
  released : List Place
  deriving DecidableEq, Repr, Inhabited

/-- What the index answered last to a request with an answer (R20, R27, R32). -/
inductive IndexAnswer where
  | quiet
  | absent
  | found (pos : Nat) (state : EntryState) (mark : Bool) (a b : Option Place)
  | busy
  | marked
  deriving DecidableEq, Repr, Inhabited

/-! ### Members and block maps (spec/02) -/

/-- A block map: the free blocks of the data area as rising, separated runs (first block, length), and the
cursor (R36). The free count is the sum of the runs. -/
structure BlockMap where
  free : List (Nat × Nat)
  cursor : Nat
  last : Nat
  deriving DecidableEq, Repr, Inhabited

/-- A member slot's member: its number and, when PRESENT, its block map (R34, R36). MISSING is `none`. -/
structure Member where
  number : Nat
  map : Option BlockMap
  deriving DecidableEq, Repr, Inhabited

/-! ### Disk ports (spec/03) -/

/-- Spin states (R44). -/
inductive SpinState where
  | absent | standby | spinup | ready | faulted
  deriving DecidableEq, Repr, Inhabited

/-- What a port knows of block 0 (R41). -/
inductive PortLabel where
  | none | unread | blank
  | hs4 (l : DiskLabel)
  deriving DecidableEq, Repr, Inhabited

/-- A STANDBY in flight: whether it is the second attempt, and whether PARK issued it (R55, R56). -/
structure StandbyRec where
  again : Bool
  park : Bool
  deriving DecidableEq, Repr, Inhabited

/-- A port's record (R41). The queue holds commands in order of entry, the command in flight apart;
`flight` carries whether it is the second attempt. `standby` is a STANDBY in flight (R55). `attempt` numbers the attempts
sent to the disk, so that the report of a dropped one is known (R50; log 37). `backlog` holds the commands blocks keep back
while one of theirs stands in the offer line (R48). -/
structure PortRec where
  spin : SpinState
  capacity : Nat
  label : PortLabel
  queue : List DiskCmd
  offers : List DiskCmd
  backlog : List DiskCmd
  flight : Option (DiskCmd × Bool)
  standby : Option StandbyRec
  attempt : Nat
  failures : Nat
  grant : Bool
  watch : Option Word
  spinAgain : Bool
  parkPending : Bool
  detected : Bool
  labelDone : Bool
  deriving DecidableEq, Repr, Inhabited

/-! ### Session manager (spec/04) -/

/-! ### Album catalog (spec/05) -/

/-- A summary of HOLDING or of a catch-up page (spec/05, HOLDING). -/
structure Summary where
  album : Nat
  id : PhotoId
  origin : Tag
  seq : Nat
  length : Nat
  deriving DecidableEq, Repr, Inhabited

/-- A wanted list entry: photo position and due second (R101). -/
structure WantedItem where
  pos : Nat
  due : Word
  deriving DecidableEq, Repr, Inhabited

/-- A catch-up conversation (R99). -/
structure Conversation where
  origin : Tag
  after : Nat
  deriving DecidableEq, Repr, Inhabited

/-! ### Verify and repair unit (spec/06) -/

/-- Phases of a pending-read record (R118). -/
inductive RecordPhase where
  | settleWait | localCopy | peer | recopying
  deriving DecidableEq, Repr, Inhabited

/-- A pending-read record (R118). `bad` are copies read and found bad, `gone` copies passed over as missing
(R119), each known by its side, A or B, not by its place: R118 does not say how a bad copy is known once its side has been
rewritten (DESIGN CHOICE, log 48); `reading` is the copy whose READ is in flight; `settle` the report seen and not yet acted on (R122). -/
structure RepairRecord where
  id : ChunkId
  phase : RecordPhase
  hold : Bool
  waiters : List (Reader × ServiceClass)
  bad : List CopySide
  gone : List CopySide
  tried : List Tag
  buffer : Option BufferNo
  reading : Bool
  settle : Option Settled
  deriving DecidableEq, Repr, Inhabited

/-- The peer repair conversation in progress (R123). -/
structure RepairConversation where
  id : ChunkId
  candidates : List Tag
  target : Option Tag
  deriving DecidableEq, Repr, Inhabited

/-- The re-mirror job (R125). -/
structure MirrorJob where
  id : ChunkId
  purpose : RecopyPurpose
  source : Place
  side : CopySide
  buffer : Option BufferNo
  deriving DecidableEq, Repr, Inhabited

/-- A scrub pass (R126, R127): positions left, and in hand a position's chunk with the copies still to
read and whether a READ is outstanding. -/
structure ScrubPass where
  left : Nat
  id : Option ChunkId
  todo : List CopySide
  deriving DecidableEq, Repr, Inhabited

/-! ### Peer directory (spec/08) -/

/-- Heard states (R145, R147). -/
inductive Heard where
  | awake | dozing | asleep | silent | unreachable
  deriving DecidableEq, Repr, Inhabited

/-- Proxy states with their slot (R145, R155). -/
inductive ProxyState where
  | idle
  | delay (p : ProxyNo)
  | waiting (p : ProxyNo)
  deriving DecidableEq, Repr, Inhabited

/-- A peer table entry (R145). -/
structure Peer where
  tag : Tag
  box : Bool
  mac : Mac
  heard : Heard
  lastHeard : Word
  dozeAt : Option Word
  period : Nat
  newestSeq : Nat
  digest : Option Digest
  proxy : ProxyState
  deriving DecidableEq, Repr, Inhabited

/-! ### Power and clock unit (spec/09) -/

/-- Station states (R161). -/
inductive StationState where
  | unconfigured | coldStart | awake | dozing | parking | asleep | waking | halted
  deriving DecidableEq, Repr, Inhabited

/-- Parking steps (R170). -/
inductive ParkStep where
  | none | hush | save | park | final
  deriving DecidableEq, Repr, Inhabited

/-- A wake latch entry: source tag and cause (R173); a BUTTON cause is 00H (R195). -/
structure LatchEntry where
  source : Tag
  cause : Byte
  deriving DecidableEq, Repr, Inhabited

/-- The tick source (R163). -/
inductive TickSource where
  | sxt | fallback
  deriving DecidableEq, Repr, Inhabited

/-- Halt reasons (R200). -/
inductive HaltReason where
  | none | memory | dramSmall | noImage | checkpoint
  deriving DecidableEq, Repr, Inhabited

/-- The flags of R201. -/
inductive Flag where
  | clockFault | wakeOverrun | configClamped | lostSeen | diskFault | unmirroredSeen | haltReason
  deriving DecidableEq, Repr, Inhabited

/-! ### Link unit (spec/11) -/

/-- A frame this station sends (R186). `restart` marks the SET_CONFIG answer whose leaving starts a cold
start (R199). -/
structure TxFrame where
  dest : Mac
  source : Mac
  frameType : BitVec 16
  family : Word
  kind : Byte
  flags : Byte
  sourceTag : Tag
  targetTag : Tag
  number : ReqNumber
  payload : List Byte
  restart : Bool
  deriving DecidableEq, Repr, Inhabited

/-- Standing of a request in the intake queue (R189); `queued` is one not offered yet. -/
inductive Standing where
  | queued | offered | deferred
  deriving DecidableEq, Repr, Inhabited

/-- A request in the intake queue. -/
structure IntakeItem where
  cmd : Instr
  standing : Standing
  deriving DecidableEq, Repr

/-- Who asked through the outgoing request table (R192). -/
inductive Asker where
  | catchup
  | fetch (f : FetchNo)
  | repair
  deriving DecidableEq, Repr, Inhabited

/-- A request an asker wants sent. -/
structure Ask where
  asker : Asker
  target : Tag
  kind : AskKind
  payload : List Byte
  deriving DecidableEq, Repr, Inhabited

/-- The link speed asked of the PHY (R172, R175). -/
inductive PhySpeed where
  | full | lowest
  deriving DecidableEq, Repr, Inhabited

/-- What a producer does once its waiting frames have joined the transmit queue (R191): SESSION_IDLE starts for the answer to
a session, the one granted as `opening`, given while an END_OBJECT was being served or not (R61), a closed session leaves
(R77), a fetch context becomes FREE (R106). -/
inductive Deed where
  | idle (s : SessionNo) (opening : Nat) (serving : Option ReqHdr)
  | left (s : SessionNo)
  | freed (f : FetchNo)
  deriving DecidableEq, Repr, Inhabited

/-- A producer in the transmit queue's waiting order (R191): the frames it still has to hand, one at a time, the work that
depends on them, and whether it is the configuration and report block. -/
structure TxWaiter where
  frames : List TxFrame
  deed : Option Deed
  report : Bool
  deriving DecidableEq, Repr, Inhabited

/-- An outgoing request table entry (R192); `made` is its place in the order of making. -/
structure OutEntry where
  number : ReqNumber
  target : Tag
  kind : AskKind
  asker : Asker
  deadline : Word
  made : Nat
  deriving DecidableEq, Repr, Inhabited

/-! ### Configuration (spec/12) -/

/-- The configuration values in force (R197). -/
structure Conf where
  frameType : BitVec 16
  family : Word
  tag : Tag
  mac : Mac
  chunkClass : Nat
  target : Nat
  multiplier : Word
  seed : Word
  sleepDelay : Nat
  diskIdle : Nat
  sessionIdle : Nat
  dozeSpread : Nat
  presencePeriod : Nat
  retention : Nat
  quota : Nat
  allowLastSleeper : Bool
  wakeReady : Bool
  stabChoice : Nat
  spinLimit : Nat
  deriving DecidableEq, Repr, Inhabited

/-! ### The checkpoint unit (spec/07) -/

/-- Progress of one member in a checkpoint (R137): pages offered, pages ended, page WRITEs queued, and the
step it has reached. -/
inductive CkptStep where
  | pages | firstFlush | root | lastFlush | succeeded | failed
  deriving DecidableEq, Repr, Inhabited

/-- A member of the current checkpoint's set (R137); `half` is the half written, true for half 1. -/
structure CkptMember where
  number : Nat
  half : Bool
  offered : Nat
  ended : Nat
  queued : Nat
  step : CkptStep
  deriving DecidableEq, Repr, Inhabited

/-- States of the checkpoint unit (spec/07). -/
inductive CkptState where
  | idle | fencing | writing | halted
  deriving DecidableEq, Repr, Inhabited

/-- The current checkpoint (spec/07). `image` is none before the capture point. -/
structure Checkpoint where
  generation : Word
  image : Option Image
  members : List (Option CkptMember)
  closers : List Closer
  deriving DecidableEq, Repr, Inhabited

/-- A root found at cold start: its port, its half and its fields (R141). -/
structure FoundRoot where
  port : DiskPort
  half : Bool
  root : Root
  deriving DecidableEq, Repr, Inhabited

/-- Progress of cold start (R140 to R143): the READs still out and the valid roots found; the candidates, the one being
read in front, with the image its pages are of and whether a READ failed; the new disks whose label is still to be written,
whether the store is new and the member table as loaded; the start checkpoint; the end. -/
inductive ColdPhase where
  | ports
  | roots (left : Nat) (found : List FoundRoot)
  | images (found candidates : List FoundRoot) (left : Nat) (image : Option Image) (bad : Bool)
  | joining (todo : List DiskPort) (fresh : Bool) (before : List (Option (Nat × Bool)))
  | starting
  | finished
  deriving DecidableEq, Repr

/-- What a validated frame, once the peer directory has taken it (R146), hands to the album catalog or to the asker of a
request: a newest origin seq (R148), a HOLDING's summaries (R95), or an answer (R193). -/
inductive Handed where
  | seq (h : ReqHdr) (seq : Nat)
  | holding (h : ReqHdr) (ms : List Summary)
  | reply (h : ReqHdr) (code : Byte) (body : List Byte) (more : Bool)
  | data (h : ReqHdr) (off : Nat) (bytes : List Byte)
  deriving DecidableEq, Repr

/-- Work on its way to a unit, or waiting there: a command, what a frame has handed on (R188, R193), a disk outcome for
its requester (R135, R136), the next object of an album's turnover (R93), or what a producer does once its frames have
joined the transmit queue (R191). -/
inductive Work where
  | cmd (c : Instr)
  | heard (x : Handed)
  | outcome (d : DiskPort) (r : Requester) (res : DiskResult) (data : ReadData)
  | turn (s : SessionNo)
  | deed (d : Deed)
  deriving DecidableEq, Repr

/-- Units that take their work in order, each item whole, so that what comes later waits behind an item that waits for a
shadow slot (R19, R136; log 29). The verify unit's work is answered by the index on the spot and counts as its own. -/
inductive WaitUnit where
  | engine | index | sessions | catalog | other
  deriving DecidableEq, Repr

/-- Why a step's owner work has to wait: the fence, or the want of a shadow slot (R135, R136). -/
inductive Stall where
  | fence | shadow
  deriving DecidableEq, Repr

end Sys2Proof.Machine
end

