-- ==== Sys2Proof/Config.lean ====
section
/-! DEFINITION. What the spec leaves open as free values: constants without a body, so that nothing can
be proved about them. -/

namespace Sys2Proof.Config

/-- The CRC-32 of an image's pages; their byte layout is not given, so the value is free (R131, R133, log 8). -/
opaque imageCrc : Machine.Image → Word

/-- The page count of an image of a given index capacity, free; Machine/Checkpoint keeps it within the half
(R131, log 8). -/
opaque pageCount : Nat → Nat

/-- The page on which a part of the image lies, by index capacity, free (R136, log 8). -/
opaque pageOf : Nat → ImagePart → Nat

/-- The CRC over a root's other fields; their byte layout is not given, so the value is free (R133, log 8). -/
opaque rootCrc : Root → Word

/-- The frame type a station without a configuration listens for and sends under, free (R187, R198, log 16). -/
opaque setupFrameType : BitVec 16

/-- What a flash that did not answer the read shows in the report, free (R198, log 26). -/
opaque unreadFlashByte : Nat → Byte

end Sys2Proof.Config
end

