-- ==== Sys2Proof/Machine/State.lean ====
section
/-! DEFINITION. The state of the HS4, block by block, as plain data, with the value of every field right
after reset. INVENTORY.md lists each field with the rule that names it. -/

namespace Sys2Proof.Machine

/-- The HS4 has no machine fault: what goes wrong is a station state (HALTED), a disk state (FAULTED), a flag or
a result code, each modelled as the effect of a command (R52, R138, R187, R202). No command raises a fault;
the type is empty, which is safe. -/
inductive Fault where
  deriving DecidableEq, Repr

/-- Reasons a command is turned away without a meaning. -/
inductive Refusal where
  /-- An arm of exec whose command has no meaning yet; raised by Dispatch alone; safe. -/
  | notModelled (mnemonic : String)
  deriving DecidableEq, Repr

/-- The link unit (spec/11), with the link speed last asked of the PHY (R172, R175). -/
structure Link where
  intake : List IntakeItem
  tx : List TxFrame
  txWait : List TxWaiter
  outgoing : List OutEntry
  askWait : List Ask
  nextNumber : ReqNumber
  made : Nat
  ticks : Word
  up : Bool
  rxHeld : List RxFrame
  speed : PhySpeed
  deriving DecidableEq, Repr

/-- The chunk engine (spec/01). -/
structure Engine where
  table : List Word
  mult : Word
  factor : Word
  chunkClass : Nat
  ctx : Vector Context 4
  buffers : Vector Buffer 64
  order : List Borrower
  deriving DecidableEq, Repr

/-- The chunk index (spec/02): entries by rising position, claims kept during a HOLD, and the answer wire. -/
structure Index where
  capacity : Nat
  entries : List (Nat × Entry)
  holding : Bool
  kept : List Claim
  answer : IndexAnswer
  deriving DecidableEq, Repr

/-- The space allocator's member table (R34). -/
structure Alloc where
  members : Vector (Option Member) 4
  store : Mac
  highest : Nat
  deriving DecidableEq, Repr

/-- The disk ports and the arbiter's waiting order (R41, R46). -/
structure Ports where
  port : Vector PortRec 4
  waiting : List DiskPort
  deriving DecidableEq, Repr

/-- The session manager (spec/04); `openings` counts the sessions each entry has been granted to, by which the model tells a
session from the one before it (log 25). -/
structure Sessions where
  table : Vector (Option Session) 4
  openings : Vector Nat 4
  clients : Vector (Option Client) 16
  retire : List RetireItem
  pageOut : Bool
  nextSerial : Word
  fenced : Bool
  deriving DecidableEq, Repr

/-- The album catalog (spec/05); `turnovers` are the ALBUM closes handed to it, oldest first, the first one in turnover
(R93). -/
structure Catalog where
  titles : Vector (Option (List Byte)) 32
  photos : List Photo
  origins : List Origin
  ownCounter : Nat
  announced : Nat
  wanted : List WantedItem
  fetches : Vector (Option Fetch) 2
  nextSerial : Word
  pending : List Tag
  talk : Option Conversation
  fenced : Bool
  fenceDue : Bool
  marksOut : Nat
  fillDue : Bool
  turnovers : List SessionNo
  deriving DecidableEq, Repr

/-- The verify and repair unit (spec/06). -/
structure Verify where
  records : List RepairRecord
  order : List ChunkId
  talk : Option RepairConversation
  mirrors : List ChunkId
  job : Option MirrorJob
  cursor : Nat
  pass : Option ScrubPass
  scrubOut : Bool
  hushed : Bool
  quietDue : Bool
  readsOut : Nat
  deriving DecidableEq, Repr

/-- The checkpoint unit (spec/07). -/
structure Ckpt where
  state : CkptState
  generation : Word
  changed : Bool
  capturedCursor : Nat
  current : Option Checkpoint
  nextClosers : List Closer
  pendingMark : Bool
  backs : List FenceOwner
  memberGen : Vector (Option (Word × Bool)) 4
  shadow : List Nat
  waiters : List Work
  deriving DecidableEq, Repr

/-- The peer directory (spec/08). -/
structure Peers where
  table : Vector (Option Peer) 32
  slots : Vector (Option Tag) 8
  deriving DecidableEq, Repr

/-- The power and clock unit (spec/09). -/
structure Power where
  station : StationState
  step : ParkStep
  parkedPorts : List DiskPort
  parkCancel : Bool
  latch : List LatchEntry
  lockAttempt : Nat
  tickSource : TickSource
  sxtFault : Bool
  lastRestart : Word
  sxtWatched : Bool
  sxtReturn : Bool
  sxtOn : Bool
  seconds : Word
  cycles : Nat
  rxtOn : Bool
  pllOn : Bool
  selfRefresh : Bool
  listener : Bool
  deriving DecidableEq, Repr

/-- The configuration and report block (spec/12). -/
structure Report where
  conf : Conf
  asRead : List Byte
  flags : Byte
  halt : HaltReason
  writing : Option (ReqHdr × List Byte)
  deriving DecidableEq, Repr

/-- The whole part, with the queue of commands waiting (`pending`) and the messages between its units (`mail`). -/
structure State where
  pending : List Instr
  mail : List Work
  stalled : Option Stall
  fenceWaiting : List Work
  freeIx : Nat
  flash : Option (List Byte)
  dram : Option Nat
  cold : ColdPhase
  link : Link
  engine : Engine
  index : Index
  alloc : Alloc
  ports : Ports
  sessions : Sessions
  catalog : Catalog
  verify : Verify
  ckpt : Ckpt
  peers : Peers
  power : Power
  timers : Vector Timer 25
  report : Report
  deriving DecidableEq, Repr

/-! ### Reset values -/

/-- A timer after cold start (R179). -/
def Timer.reset : Timer :=
  { core := { running := false, stage := .first, remaining := 0, secondCount := 0, reload := 0 }, pending := [],
    held := false }

/-- The running print at the start value of the hash: no byte absorbed; the eight words are those SHA-256
begins with (R5, R8; PRESUMED, log 7). -/
def RunningPrint.start : RunningPrint :=
  { words := [0x6A09E667, 0xBB67AE85, 0x3C6EF372, 0xA54FF53A, 0x510E527F, 0x9B05688C, 0x1F83D9AB, 0x5BE0CD19],
    tail := [], count := 0 }

/-- A cutting context after cold start: FREE and cleared (R4). -/
def Context.reset : Context :=
  { state := .free, serial := 0, sum := 0, delay := [], len := 0, hash := RunningPrint.start, buffer := none,
    remainder := [] }

/-- A disk port after cold start, before its link is brought up (R41). -/
def PortRec.reset : PortRec :=
  { spin := .absent, capacity := 0, label := .none, queue := [], offers := [], backlog := [], flight := none,
    standby := none, attempt := 0, failures := 0, grant := false, watch := none, spinAgain := false, parkPending := false,
    detected := false, labelDone := false }

/-- The defaults of R197; the fields it gives no default for are 0 until the block is read (log 3). -/
def Conf.reset : Conf :=
  { frameType := 0, family := 0, tag := 0, mac := 0, chunkClass := 1, target := 2, multiplier := 0x2F019A3D,
    seed := 0x4B1D29C3, sleepDelay := 900, diskIdle := 600, sessionIdle := 120, dozeSpread := 120,
    presencePeriod := 30, retention := 8, quota := 0, allowLastSleeper := false, wakeReady := false,
    stabChoice := 1, spinLimit := 1 }

/-- The machine right after reset: COLD_START with nothing read yet (R162); every field at the after-cold-start
value of its chapter's state table, or at the value log 3 names. -/
def State.reset : State :=
  { pending := [], mail := [], stalled := none, fenceWaiting := [], freeIx := 0,
    flash := some (List.replicate 48 0xFF), dram := some 1073741824, cold := .ports,
    link := { intake := [], tx := [], txWait := [], outgoing := [], askWait := [], nextNumber := 1, made := 0, ticks := 0,
              up := true, rxHeld := [], speed := .full },
    engine := { table := [], mult := 0x2F019A3D, factor := 0, chunkClass := 1,
                ctx := Vector.replicate 4 Context.reset,
                buffers := Vector.replicate 64 { state := .free, bytes := [] }, order := [] },
    index := { capacity := 0, entries := [], holding := false, kept := [], answer := .quiet },
    alloc := { members := Vector.replicate 4 none, store := 0, highest := 0 },
    ports := { port := Vector.replicate 4 PortRec.reset, waiting := [] },
    sessions := { table := Vector.replicate 4 none, openings := Vector.replicate 4 0,
                  clients := Vector.replicate 16 none, retire := [], pageOut := false, nextSerial := 1, fenced := false },
    catalog := { titles := Vector.replicate 32 none, photos := [], origins := [], ownCounter := 0, announced := 0,
                 wanted := [], fetches := Vector.replicate 2 none, nextSerial := 1, pending := [], talk := none,
                 fenced := false, fenceDue := false, marksOut := 0, fillDue := false, turnovers := [] },
    verify := { records := [], order := [], talk := none, mirrors := [], job := none, cursor := 0, pass := none,
                scrubOut := false, hushed := false, quietDue := false, readsOut := 0 },
    ckpt := { state := .idle, generation := 0, changed := false, capturedCursor := 0, current := none,
              nextClosers := [], pendingMark := false, backs := [], memberGen := Vector.replicate 4 none,
              shadow := [], waiters := [] },
    peers := { table := Vector.replicate 32 none, slots := Vector.replicate 8 none },
    power := { station := .coldStart, step := .none, parkedPorts := [], parkCancel := false, latch := [],
               lockAttempt := 1, tickSource := .sxt, sxtFault := false, lastRestart := 0, sxtWatched := false,
               sxtReturn := false, sxtOn := true, seconds := 0, cycles := 0, rxtOn := true, pllOn := true,
               selfRefresh := false, listener := false },
    timers := Vector.replicate 25 Timer.reset,
    report := { conf := Conf.reset, asRead := List.replicate 48 0xFF, flags := 0, halt := .none,
                writing := none } }

end Sys2Proof.Machine
end

