-- ==== Sys2Proof/Machine/Bytes.lean ====
section
/-! DEFINITION. Bytes: most-significant-first fields (R195), the CRC-32 of spec/00 "Terms", and the byte form
of recipe elements and extents (R39, R195). -/

namespace Sys2Proof.Machine

/-- The value `v` in `n` bytes, most significant first (R195). -/
def beBytes : Nat → Nat → List Byte
  | 0, _ => []
  | n + 1, v => BitVec.ofNat 8 (v / 256 ^ n) :: beBytes n v

/-- The number bytes spell, most significant first (R195). -/
def beNat (bs : List Byte) : Nat :=
  bs.foldl (fun acc b => acc * 256 + b.toNat) 0

/-- One bit of the reflected CRC with polynomial 04C11DB7H. -/
def crcBit (c : Word) : Word :=
  if c.getLsbD 0 then (c >>> 1) ^^^ 0xEDB88320#32 else c >>> 1

/-- One byte of the reflected CRC. -/
def crcByte (c : Word) (b : Byte) : Word :=
  crcBit (crcBit (crcBit (crcBit (crcBit (crcBit (crcBit (crcBit (c ^^^ b.setWidth 32))))))))

/-- CRC-32: polynomial 04C11DB7H, reflected, initial value and final XOR FFFFFFFFH (spec/00). -/
def crc32 (bs : List Byte) : Word :=
  bs.foldl crcByte 0xFFFFFFFF#32 ^^^ 0xFFFFFFFF#32

/-- ceil(a / b). -/
def ceilDiv (a b : Nat) : Nat := (a + b - 1) / b

/-- Blocks of a copy of a chunk: ceil(length / 4,096) (R10). -/
def copyBlocks (length : Nat) : Nat := ceilDiv length 4096

/-- Zero bytes that fill out the last block of a copy beyond the chunk's end (R28). -/
def copyZeros (length : Nat) : Nat := copyBlocks length * 4096 - length

/-- Blocks of a recipe extent of `e` elements, 204 to a block (R39). -/
def extentBlocks (e : Nat) : Nat := ceilDiv e 204

/-- An element's 20 bytes: the print, then the length (R195). -/
def elementBytes (e : ChunkId) : List Byte :=
  beBytes 16 e.print.toNat ++ beBytes 4 e.length

/-- The element that 20 bytes spell (R195). -/
def elementOf (bs : List Byte) : ChunkId :=
  { print := BitVec.ofNat 128 (beNat (bs.take 16)), length := beNat ((bs.drop 16).take 4) }

/-- The first `n` elements of a run of 20-byte elements. -/
def elementsOf : Nat → List Byte → List ChunkId
  | 0, _ => []
  | n + 1, bs => if bs.length < 20 then [] else elementOf (bs.take 20) :: elementsOf n (bs.drop 20)

/-- The elements of `n` recipe blocks: 204 elements from the start of each 4,096-byte block (R39, log 23). -/
def blockElements : Nat → List Byte → List ChunkId
  | 0, _ => []
  | n + 1, bs => elementsOf 204 (bs.take 4096) ++ blockElements n (bs.drop 4096)

/-- A text field: a length byte, then that many bytes; absent is length 0 (R195). -/
def textBytes (t : Option (List Byte)) : List Byte :=
  match t with
  | none => [0]
  | some bs => BitVec.ofNat 8 bs.length :: bs

/-- A byte that says yes (01H) or no (00H). -/
def boolByte (b : Bool) : Byte := if b then 1 else 0

/-- Cut a list into runs of `n`, the last shorter; `fuel` bounds the number of runs. -/
def chunksOf (n : Nat) : Nat → List α → List (List α)
  | 0, _ => []
  | _ + 1, [] => []
  | fuel + 1, xs => xs.take n :: chunksOf n fuel (xs.drop n)

end Sys2Proof.Machine
end

