-- ==== Sys2Proof/Machine/Sha.lean ====
section
/-! DEFINITION. The print of a chunk: the first 128 bits of the SHA-256 digest (R8). The spec names SHA-256 and
gives none of its constants; the published standard takes them from the roots of the first primes, and so does this
file (PRESUMED, log 7). -/

namespace Sys2Proof.Machine

/-- The largest number whose `power`-th power does not pass `target`, bit by bit from bit `bits - 1` down. -/
def rootBits (power target : Nat) : Nat → Nat → Nat
  | 0, low => low
  | bits + 1, low => rootBits power target bits (if (low + 2 ^ bits) ^ power ≤ target then low + 2 ^ bits else low)

/-- The first 32 bits after the point of a prime's root: the square root for a start word, the cube root for a round's
constant. Every prime used is below 512, so its root is below 2^5. -/
def rootWord (power prime : Nat) : Word := BitVec.ofNat 32 (rootBits power (prime * 2 ^ (32 * power)) 37 0)

/-- Is a number below 361 a prime: above 1, and a multiple of no prime up to 17 but itself? -/
def isPrime (n : Nat) : Bool := 2 ≤ n && [2, 3, 5, 7, 11, 13, 17].all (fun d => n == d || n % d != 0)

/-- The first sixty-four primes: those up to 311. -/
def shaPrimes : List Nat := (List.range 312).filter isPrime

/-- The constants of the rounds, one for each prime in turn. -/
def roundConstants : List Word := shaPrimes.map (rootWord 3)

/-- Three rotations of a word, one over the other. -/
def stir (i j k : Nat) (x : Word) : Word := x.rotateRight i ^^^ x.rotateRight j ^^^ x.rotateRight k

/-- Two rotations and a shift of a schedule word, one over the other. -/
def spread (i j k : Nat) (x : Word) : Word := x.rotateRight i ^^^ x.rotateRight j ^^^ (x >>> k)

/-- The word that joins a schedule window of sixteen words, oldest first. -/
def scheduleWord (window : List Word) : Word :=
  window.getD 0 0 + spread 7 18 3 (window.getD 1 0) + window.getD 9 0 + spread 17 19 10 (window.getD 14 0)

/-- Bit by bit, the second word where the first has a one and the third where it has none. -/
def choose (x y z : Word) : Word := z ^^^ (x &&& (y ^^^ z))

/-- Bit by bit, what at least two of three words hold. -/
def majority (x y z : Word) : Word := (x &&& y) ||| (z &&& (x ||| y))

/-- One round over the eight working words, with its constant and its schedule word added up in `kw`. -/
def roundWords (kw : Word) (v : List Word) : List Word :=
  let at' := fun n => v.getD n 0
  let mixed := at' 7 + stir 6 11 25 (at' 4) + choose (at' 4) (at' 5) (at' 6) + kw
  (mixed + stir 2 13 22 (at' 0) + majority (at' 0) (at' 1) (at' 2)) ::
    (v.take 3 ++ (at' 3 + mixed) :: (v.drop 4).take 3)

/-- The rounds that remain, by their constants, over the schedule window and the working words. -/
def runRounds : List Word → List Word → List Word → List Word
  | [], _, v => v
  | k :: ks, window, v => runRounds ks (window.tail ++ [scheduleWord window]) (roundWords (k + window.getD 0 0) v)

/-- The big-endian words of a block of bytes. -/
def shaWords : Nat → List Byte → List Word
  | 0, _ => []
  | n + 1, bs => BitVec.ofNat 32 (beNat (bs.take 4)) :: shaWords n (bs.drop 4)

/-- Compress one 64-byte block into the hash words. -/
def shaBlock (words : List Word) (block : List Byte) : List Word :=
  List.zipWith (· + ·) words (runRounds roundConstants (shaWords 16 block) words)

/-- The running print absorbs one byte as it enters (R6 step 4). -/
def RunningPrint.absorb (p : RunningPrint) (b : Byte) : RunningPrint :=
  if p.tail.length = 63 then { words := shaBlock p.words (p.tail ++ [b]), tail := [], count := p.count + 1 }
  else { p with tail := p.tail ++ [b], count := p.count + 1 }

/-- The hash words after the padding of SHA-256: 80H, zeros, and the bit count in eight bytes. -/
def RunningPrint.close (p : RunningPrint) : List Word :=
  let ended := p.tail ++ [0x80]
  let count := beBytes 8 (p.count * 8)
  if ended.length ≤ 56 then shaBlock p.words (ended ++ List.replicate (56 - ended.length) 0 ++ count)
  else
    shaBlock (shaBlock p.words (ended ++ List.replicate (64 - ended.length) 0)) (List.replicate 56 0 ++ count)

/-- The print at this moment: the first 128 bits of the digest, first digest byte most significant (R8). -/
def RunningPrint.print (p : RunningPrint) : Print :=
  BitVec.ofNat 128 ((p.close.take 4).foldl (fun acc w => acc * 4294967296 + w.toNat) 0)

/-- The print of given bytes (R8): what verifying, repairing and fetching compute over bytes at hand. -/
def printOf (bs : List Byte) : Print :=
  (bs.foldl RunningPrint.absorb RunningPrint.start).print

end Sys2Proof.Machine
end

