-- ==== Sys2Proof/Machine/Ops.lean ====
section
/-! DEFINITION. Shared operations over the state: messages between units, timers (spec/10), the chunk buffer pool
(R12), change reports with page copies (R134, R136), and the waiting of an owner's work (R135, R136). -/

namespace Sys2Proof.Machine

/-- Replace one element of a vector. -/
def put (v : Vector α n) (i : Fin n) (x : α) : Vector α n := v.set i.val x i.isLt

/-- Insert before the first element that `before` says stands later; keeps a rising list rising. -/
def insertBy (before : α → α → Bool) (x : α) : List α → List α
  | [] => [x]
  | y :: ys => if before x y then x :: y :: ys else y :: insertBy before x ys

/-- Change the first element that satisfies `p`. -/
def changeFirst (p : α → Bool) (f : α → α) : List α → List α
  | [] => []
  | x :: xs => if p x then f x :: xs else x :: changeFirst p f xs

/-- Remove the first element that satisfies `p`. -/
def dropFirst (p : α → Bool) : List α → List α
  | [] => []
  | x :: xs => if p x then xs else x :: dropFirst p xs

/-- Change the element at a position, if there is one. -/
def changeAt (f : α → α) : Nat → List α → List α
  | _, [] => []
  | 0, x :: xs => f x :: xs
  | n + 1, x :: xs => x :: changeAt f n xs

/-- The places at which a list's elements satisfy `p`. -/
def placesWhere (p : α → Bool) (l : List α) : List Nat := (l.zipIdx.filter (fun x => p x.1)).map (·.2)

/-! ### Messages between units -/

/-- Send a command to a unit: it joins the end of the mail (R135, log 1). -/
def post (c : Instr) (s : State) : State := { s with mail := s.mail ++ [.cmd c] }

/-- Send several commands in order. -/
def postAll : List Instr → State → State
  | [], s => s
  | c :: cs, s => postAll cs (post c s)

/-- The station's state (R161). -/
def State.station (s : State) : StationState := s.power.station

/-- The configuration values in force (R197). -/
def State.conf (s : State) : Conf := s.report.conf

/-- Station seconds (R163). -/
def State.now (s : State) : Word := s.power.seconds

/-! ### Timers -/

/-- The mode of a timer, by its number (spec/10, table). -/
def timerMode (t : TimerNo) : TimerMode :=
  if t.val = 10 ∨ (13 ≤ t.val ∧ t.val ≤ 20) then .twoStage
  else if t.val = 11 ∨ t.val = 12 ∨ t.val = 23 then .periodic
  else .oneShot

/-- The base of a timer, by its number (spec/10, table). -/
def timerBase (t : TimerNo) : TickBase :=
  if t.val = 10 then .cycle
  else if t.val = 9 ∨ (13 ≤ t.val ∧ t.val ≤ 20) ∨ t.val = 22 then .fine
  else .coarse

/-- DISK_IDLE[d], timers 0 to 3. -/
def diskIdleTimer (d : DiskPort) : TimerNo := ⟨d.val, by omega⟩
/-- SESSION_IDLE[s], timers 4 to 7. -/
def sessionIdleTimer (i : SessionNo) : TimerNo := ⟨4 + i.val, by omega⟩
/-- SLEEP_DELAY. -/
def sleepDelayTimer : TimerNo := 8
/-- DOZE_HOLD. -/
def dozeHoldTimer : TimerNo := 9
/-- WAKE_STAB. -/
def wakeStabTimer : TimerNo := 10
/-- BEACON. -/
def beaconTimer : TimerNo := 11
/-- SILENCE. -/
def silenceTimer : TimerNo := 12
/-- PROXY[p], timers 13 to 20. -/
def proxyTimer (p : ProxyNo) : TimerNo := ⟨13 + p.val, by omega⟩
/-- WANTED. -/
def wantedTimer : TimerNo := 21
/-- REPLY. -/
def replyTimer : TimerNo := 22
/-- SCRUB. -/
def scrubTimer : TimerNo := 23
/-- CHECKPOINT. -/
def checkpointTimer : TimerNo := 24

/-- A count clamped to 1..65,535 (R181). -/
def clampCount (n : Int) : Nat := if n < 1 then 1 else if 65535 < n then 65535 else n.toNat

/-- The record an operation meets: the oldest restore point where expiries are pending (R184). -/
def Timer.met (t : Timer) : TimerCore :=
  match t.pending with
  | [] => t.core
  | r :: _ => r

/-- START on a timer's record (R181, R184). -/
def Timer.start (mode : TimerMode) (count second : Int) (t : Timer) : Timer :=
  { t with
    core := { running := true, stage := .first, remaining := clampCount count,
              secondCount := if mode = .twoStage then clampCount second else t.met.secondCount,
              reload := if mode = .periodic then clampCount count else t.met.reload },
    pending := [] }

/-- STOP on a timer's record (R182, R184). -/
def Timer.stop (t : Timer) : Timer :=
  { t with core := { t.met with running := false, stage := .first, remaining := 0 }, pending := [] }

/-- EXTEND on a timer's record (R182, R184): the sum saturates at 65,535 and clamps at 1. -/
def Timer.extend (n : Int) (t : Timer) : Timer :=
  if t.met.running then
    { t with core := { t.met with remaining := clampCount (t.met.remaining + n) }, pending := [] }
  else t

/-- The record after an expiry, by mode and stage (R183). -/
def TimerCore.expire (mode : TimerMode) (c : TimerCore) : TimerCore :=
  match mode, c.stage with
  | .oneShot, _ => { c with running := false, remaining := 0 }
  | .twoStage, .first => { c with stage := .second, remaining := c.secondCount }
  | .twoStage, .second => { c with running := false, stage := .first, remaining := 0 }
  | .periodic, _ => { c with remaining := c.reload }

/-- One tick of the timer's base (R180, R183, R185): the count falls by 1; at 0 the timer expires and the record
before the change joins the pending expiries as restore point. The Bool says whether it expired. -/
def Timer.tick (mode : TimerMode) (t : Timer) : Timer × Bool :=
  if t.core.running && !t.held then
    let low := { t.core with remaining := t.core.remaining - 1 }
    if low.remaining = 0 then ({ t with core := low.expire mode, pending := t.pending ++ [low] }, true)
    else ({ t with core := low }, false)
  else (t, false)

/-- START sent by an owner (R181). -/
def startTimer (t : TimerNo) (count : Int) (s : State) (second : Int := 0) : State :=
  { s with timers := put s.timers t ((s.timers[t]).start (timerMode t) count second) }

/-- STOP sent by an owner (R182). -/
def stopTimer (t : TimerNo) (s : State) : State :=
  { s with timers := put s.timers t (s.timers[t]).stop }

/-- EXTEND sent by an owner (R182). -/
def extendTimer (t : TimerNo) (n : Int) (s : State) : State :=
  { s with timers := put s.timers t ((s.timers[t]).extend n) }

/-- The command by which an owner takes an expiry of a timer that ended the given stage (R183). -/
def expiryCommand (t : TimerNo) (stage : Stage) : Instr :=
  if h : t.val < 4 then .diskIdleExpiry ⟨t.val, h⟩
  else if h : t.val < 8 then .sessionIdleExpiry ⟨t.val - 4, by omega⟩
  else if t.val = 8 then .sleepDelayExpiry
  else if t.val = 9 then .dozeHoldExpiry
  else if t.val = 10 then
    match stage with
    | .first => .wakeStabStage1Expiry
    | .second => .wakeStabStage2Expiry
  else if t.val = 11 then .beaconExpiry
  else if t.val = 12 then .silenceExpiry
  else if h : 13 ≤ t.val ∧ t.val ≤ 20 then
    match stage with
    | .first => .proxyStage1Expiry ⟨t.val - 13, by omega⟩
    | .second => .proxyStage2Expiry ⟨t.val - 13, by omega⟩
  else if t.val = 21 then .wantedExpiry
  else if t.val = 22 then .replyTimerExpiry
  else if t.val = 23 then .scrubExpiry
  else .checkpointExpiry

/-- The owner takes the oldest pending expiry, if one is pending, its stage is the one named and the timer is not
held (R183, R185). An expiry withdrawn meanwhile is not there to be taken (R184); its command, still in the mail, then takes
the next expiry of the timer, where one has fallen since, ahead of what was sent in between (DESIGN CHOICE, log 44). -/
def takeExpiry (t : TimerNo) (stage : Stage) (s : State) : Option State :=
  let rec0 := s.timers[t]
  match rec0.pending with
  | [] => none
  | r :: rest =>
    if rec0.held = false ∧ (timerMode t ≠ .twoStage ∨ r.stage = stage) then
      some { s with timers := put s.timers t { rec0 with pending := rest } }
    else none

/-! ### Chunk buffer pool -/

/-- The first free buffer, lowest number first (log 11). -/
def freeBuffer (s : State) : Option BufferNo :=
  (List.finRange 64).find? (fun b => (s.engine.buffers[b]).state = .free)

/-- Lend a buffer, empty (R12). -/
def lendBuffer (b : BufferNo) (who : Borrower) (s : State) : State :=
  { s with engine.buffers := put s.engine.buffers b { state := .lent who, bytes := [] } }

/-- Take a free buffer at once, or join the end of the waiting order, each requester at most once (R12). -/
def requestBuffer (who : Borrower) (s : State) : Option BufferNo × State :=
  match freeBuffer s with
  | some b => (some b, lendBuffer b who s)
  | none =>
    (none, if who ∈ s.engine.order then s else { s with engine.order := s.engine.order ++ [who] })

/-- A waiter withdraws from the order without a buffer (R12, R14). -/
def leaveOrder (who : Borrower) (s : State) : State :=
  { s with engine.order := s.engine.order.filter (· ≠ who) }

/-- Release a buffer: free when nobody waits, else on its way to the oldest waiter (R12). -/
def releaseBuffer (b : BufferNo) (s : State) : State :=
  if s.engine.order.isEmpty then
    { s with engine.buffers := put s.engine.buffers b { state := .free, bytes := [] } }
  else
    post (.bufferGrant b) { s with engine.buffers := put s.engine.buffers b { state := .granting, bytes := [] } }

/-- Pass a lent buffer on to another borrower with its bytes (R9, R119). -/
def passBuffer (b : BufferNo) (who : Borrower) (s : State) : State :=
  { s with engine.buffers := put s.engine.buffers b { s.engine.buffers[b] with state := .lent who } }

/-- Set the bytes standing in a buffer. -/
def fillBuffer (b : BufferNo) (bytes : List Byte) (s : State) : State :=
  { s with engine.buffers := put s.engine.buffers b { s.engine.buffers[b] with bytes := bytes } }

/-! ### Changes to imaged state -/

/-- Pages of an image: the free count, kept between 1 and the pages of one half less its root (R131, R133). -/
def imagePages (capacity : Nat) : Nat := max 1 (min 786431 (Config.pageCount capacity))

/-- The page a part lies on (R136, log 8). -/
def pageOfPart (capacity : Nat) (p : ImagePart) : Nat := Config.pageOf capacity p % imagePages capacity

/-- A page is released when its WRITE has ended on every member still in the set (R136). -/
def pageReleased (members : List (Option CkptMember)) (page : Nat) : Bool :=
  members.all fun m =>
    match m with
    | none => true
    | some m => m.step = .failed || page < m.ended

/-- A change to a part of a captured page asks for a page copy first. With no free slot it waits; so does one that needs a
slot while earlier changes wait, which are served in the order they began to wait (R136). -/
def copyPage (p : ImagePart) (s : State) : State :=
  match s.ckpt.current with
  | some c =>
    if c.image.isNone then s
    else
      let page := pageOfPart s.index.capacity p
      if pageReleased c.members page || s.ckpt.shadow.contains page then s
      else if s.ckpt.shadow.length < 8192 ∧ s.ckpt.waiters.isEmpty then { s with ckpt.shadow := s.ckpt.shadow ++ [page] }
      else { s with stalled := some .shadow }
  | none => s

/-- CLEAN becomes CHANGED, and CHECKPOINT starts at 600 (R134); in COLD_START no timer starts before the entry into AWAKE
(R179; log 38). -/
def markChanged (s : State) : State :=
  if s.ckpt.changed then s
  else if s.power.station = .coldStart then { s with ckpt.changed := true }
  else startTimer checkpointTimer 600 { s with ckpt.changed := true }

/-- Report a change to imaged state (R19, R134), which first asks for its page copy (R136). A move of the scrub cursor is
not reported (R126, R134). A HALTED unit ignores it. -/
def noteChange (p : ImagePart) (s : State) : State :=
  if s.ckpt.state = .halted then s else copyPage p (if p = .scrub then s else markChanged s)

/-- Report a list of changes (R19, R134). -/
def noteChanges (ps : List ImagePart) (s : State) : State := ps.foldl (fun s p => noteChange p s) s

/-- Is the owner between FENCE_BACK and RELEASE (R135)? -/
def ownerFenced (o : FenceOwner) (s : State) : Bool :=
  match o with
  | .sessions => s.sessions.fenced
  | .catalog => s.catalog.fenced

/-- An owner sends the index a DROP; between FENCE_BACK and RELEASE its work waits instead (R135). -/
def sendDrop (o : FenceOwner) (id : ChunkId) (s : State) : State :=
  if ownerFenced o s then { s with stalled := some .fence } else post (.drop id) s

/-- DROPs for a list of chunks, in order. -/
def sendDrops (o : FenceOwner) : List ChunkId → State → State
  | [], s => s
  | id :: ids, s => sendDrops o ids (sendDrop o id s)

/-- The catalog sends one MARK per element in recipe order (R93, R106); fenced, or with a FENCE taken, its work
waits (R135). -/
def sendMarks : List ChunkId → State → State
  | [], s => s
  | id :: ids, s =>
    sendMarks ids
      (if s.catalog.fenced || s.catalog.fenceDue then { s with stalled := some .fence }
       else post (.mark id) { s with catalog.marksOut := s.catalog.marksOut + 1 })

/-! ### Work that waits -/

/-- The block a requester belongs to (R48). -/
inductive DiskUser where
  | index | sessions | catalog | verify | checkpoint | allocator | port
  deriving DecidableEq, Repr

/-- The requesting block of a command (R48). -/
def userOf (r : Requester) : DiskUser :=
  match r with
  | .chunkWrite .. => .index
  | .recopyWrite .. => .index
  | .closeExtent .. => .sessions
  | .fetchExtent _ => .catalog
  | .recipeRead job =>
    match job.form with
    | .restore => .sessions
    | .album => .catalog
    | .print => .catalog
  | .retirePage => .sessions
  | .vread _ => .verify
  | .recordRead .. => .verify
  | .recordServe _ => .verify
  | .remirrorRead _ => .verify
  | .scrubRead .. => .verify
  | .labelRead => .port
  | .labelWrite => .allocator
  | .rootRead _ => .checkpoint
  | .imageRead => .checkpoint
  | .ckptPages _ _ => .checkpoint
  | .ckptFirstFlush _ => .checkpoint
  | .ckptRoot _ => .checkpoint
  | .ckptLastFlush _ => .checkpoint

/-- The unit that takes a command, where such work can have to wait (R135, R136). A GET_CHUNK by print is answered by a
LOOKUP (R113) and stands in the index's order. -/
def unitOfCommand (c : Instr) : WaitUnit :=
  match c with
  | .ctxBind .. | .ctxOpen .. | .ctxEnter .. | .ctxEnd .. | .ctxDiscard .. | .ctxUnbind .. | .bufferGrant .. => .engine
  | .claim .. | .drop .. | .mark .. | .lookup .. | .readBegin .. | .readEnd .. | .suspect .. | .condemn .. | .recopy ..
  | .vread .. | .recopyAnswer .. | .verifySettleReport .. | .removalNotice .. | .peerRepairStart | .remirrorJobStart
  | .scrubExpiry | .hush | .unhush | .getChunkPrint .. => .index
  | .openSession .. | .beginObject .. | .segment .. | .endObject .. | .closeSession .. | .abandonSession ..
  | .listSnapshots .. | .listObjects .. | .dropSnapshot .. | .getRecipeSnapshot .. | .getChunkSnapshot ..
  | .sessionIdleExpiry .. | .segmentEntered .. | .objectCut .. | .claimOutcome .. | .sessionSettleReport ..
  | .vreadAnswer .. => .sessions
  | .listAlbum .. | .getRecipeAlbum .. | .getChunkAlbum .. | .catalogSince .. | .replyTimerExpiry | .wantedExpiry | .catchupStart
  | .fetchClaimOutcome .. | .fetchSettleReport .. => .catalog
  | _ => .other

/-- The unit that takes a piece of work. -/
def unitOf (w : Work) : WaitUnit :=
  match w with
  | .cmd c => unitOfCommand c
  | .heard _ => .catalog
  | .outcome _ r _ _ =>
    match userOf r with
    | .index => .index
    | .verify => .index
    | .sessions => .sessions
    | .catalog => .catalog
    | .checkpoint => .other
    | .allocator => .other
    | .port => .other
  | .turn _ => .catalog
  | .deed (.idle ..) => .sessions
  | .deed (.left _) => .sessions
  | .deed (.freed _) => .catalog

/-- A unit takes its work in order: what comes while an earlier item of its waits for a shadow slot stands behind it (R19,
R136; log 29). -/
def waitsBehind (w : Work) (s : State) : Bool :=
  unitOf w ≠ .other && s.ckpt.waiters.any (fun v => unitOf v = unitOf w)

/-- A request to the index from within the work of another unit. It takes its place in the index's order: behind index work
that waits for a shadow slot that whole work waits too (R19, R136; log 29). -/
def onIndex (f : State → State) (s : State) : State :=
  if s.ckpt.waiters.any (fun v => unitOf v = .index) then { s with stalled := some .shadow } else f s

/-- Do a piece of work of a unit. Behind earlier work of its unit that waits, or when it would have to wait itself, for
RELEASE (R135) or for a shadow slot (R136), it changes nothing now and stands among the waiting work. -/
def asWork (w : Work) (f : State → State) (s : State) : State :=
  if waitsBehind w s then { s with ckpt.waiters := s.ckpt.waiters ++ [w] }
  else
    match (f s).stalled with
    | none => f s
    | some .fence => { s with fenceWaiting := s.fenceWaiting ++ [w] }
    | some .shadow => { s with ckpt.waiters := s.ckpt.waiters ++ [w] }

/-- Work of a block that begins nothing and takes no outcome once the station is HALTED (R162). -/
def unlessHalted (f : State → State) (s : State) : State :=
  if s.power.station = .halted then s else f s

/-- Work of a session manager, catalog, verify unit or directory command (R135, R136, R162). -/
def ownerWork (c : Instr) (f : State → State) (s : State) : State :=
  asWork (.cmd c) (unlessHalted f) s

end Sys2Proof.Machine
end

