-- ==== Sys2Proof/Machine/Flags.lean ====
section
/-! DEFINITION. The flags, the halt reason and the front panel (R201, R203), and the entry into HALTED (R162). -/

namespace Sys2Proof.Machine

/-- The bit of a flag in the report's flag byte (R200). -/
def flagBit (f : Flag) : Byte :=
  match f with
  | .clockFault => 0x01
  | .wakeOverrun => 0x02
  | .configClamped => 0x04
  | .lostSeen => 0x08
  | .diskFault => 0x10
  | .unmirroredSeen => 0x20
  | .haltReason => 0x40

/-- Set a flag; a flag already set stays set (R201). -/
def setFlag (f : Flag) (s : State) : State := { s with report.flags := s.report.flags ||| flagBit f }

/-- Is a flag set? -/
def flagSet (f : Flag) (s : State) : Bool := s.report.flags &&& flagBit f ≠ 0

/-- What LED A shows (R203). -/
inductive LedA where
  | off | on | slowBlink | fastBlink
  deriving DecidableEq, Repr

/-- LED A by the station state (R203). -/
def ledA (s : State) : LedA :=
  match s.power.station with
  | .awake => .on
  | .dozing => .slowBlink
  | .parking => .slowBlink
  | .waking => .slowBlink
  | .coldStart => .fastBlink
  | .unconfigured => .fastBlink
  | .asleep => .off
  | .halted => .off

/-- LED B is on while any flag is set; the concern bit of a PRESENCE equals it (R203). -/
def ledB (s : State) : Bool := s.report.flags ≠ 0

/-- The halt reason's code in the report (R200). -/
def haltCode (h : HaltReason) : Byte :=
  match h with
  | .none => 0
  | .memory => 1
  | .dramSmall => 2
  | .noImage => 3
  | .checkpoint => 4

/-- The station state's code in the report (R200). -/
def stationCode (x : StationState) : Byte :=
  match x with
  | .unconfigured => 0
  | .coldStart => 1
  | .awake => 2
  | .dozing => 3
  | .parking => 4
  | .asleep => 5
  | .waking => 6
  | .halted => 7

/-- Stop a list of timers. -/
def stopTimers : List TimerNo → State → State
  | [], s => s
  | t :: ts, s => stopTimers ts (stopTimer t s)

/-- The timers stopped at the entry into HALTED: SESSION_IDLE, SLEEP_DELAY, DOZE_HOLD, BEACON, SILENCE, PROXY,
WANTED, REPLY, SCRUB and CHECKPOINT (R138, R162, R194). -/
def haltedTimers : List TimerNo :=
  [4, 5, 6, 7, 8, 9, 11, 12, 13, 14, 15, 16, 17, 18, 19, 20, 21, 22, 23, 24]

/-- The station becomes HALTED: the reason is recorded, HALT_REASON set, the clocks and the link as R161 has them, the timers
stopped, every outgoing entry freed without TIMEOUT, the checkpoint unit HALTED, a cold start at its end, and no producer
but the configuration and report block hands a further frame (R138, R140, R161, R162, R191, R194, R201; log 25,
log 36). Requests that stand untaken in the intake queue stay there unanswered: R202 speaks of those that come in HALTED
(DESIGN CHOICE, log 41). Frames held in the receive buffer since the final step of parking began stay there and reach no
unit: R162 does not name them (DESIGN CHOICE, log 44). -/
def enterHalted (why : HaltReason) (s : State) : State :=
  let s := stopTimers haltedTimers (setFlag .haltReason s)
  { s with power.station := .halted, power.rxtOn := true, power.pllOn := true, power.listener := false,
           power.selfRefresh := false, report.halt := why, link.outgoing := [], link.askWait := [],
           link.txWait := s.link.txWait.filter (·.report), ckpt.state := .halted, cold := .finished }

end Sys2Proof.Machine
end

