-- ==== Sys2Proof/Machine/Link.lean ====
section
/-! DEFINITION. The link unit's outward half: frames and answers (R186, R190), the transmit queue (R191) and the
outgoing request table (R192, R194). -/

namespace Sys2Proof.Machine

/-- The Ethernet broadcast address (R186). -/
def broadcastMac : Mac := 0xFFFFFFFFFFFF
/-- The address an UNCONFIGURED station sends from (R198). -/
def setupMac : Mac := 0x020000004834
/-- Target FFFFH: all stations of the family (R186). -/
def allStations : Tag := 0xFFFF

/-- A result code's value (spec/11, "Result codes"). -/
def codeByte (c : Code) : Byte :=
  match c with
  | .ok => 0x00
  | .busy => 0x01
  | .badRequest => 0x02
  | .notPermitted => 0x03
  | .noSession => 0x04
  | .sessionOpen => 0x05
  | .sessionsFull => 0x06
  | .clientsFull => 0x07
  | .nameTaken => 0x08
  | .draftFull => 0x09
  | .quota => 0x0A
  | .duplicate => 0x0B
  | .gap => 0x0C
  | .short => 0x0D
  | .long => 0x0E
  | .noSpace => 0x0F
  | .indexFull => 0x10
  | .recipeFull => 0x11
  | .catalogFull => 0x12
  | .storeFailed => 0x13
  | .damaged => 0x14
  | .notHeld => 0x15
  | .waking => 0x16
  | .notFound => 0x17
  | .unconfigured => 0x18
  | .halted => 0x19

/-- A frame of this station (R186, R198): in UNCONFIGURED it carries family 0, source tag FFFFH and the setup
address. -/
def frame (s : State) (dest : Mac) (kind flags : Byte) (target : Tag) (number : ReqNumber) (payload : List Byte) :
    TxFrame :=
  if s.power.station = .unconfigured then
    { dest := dest, source := setupMac, frameType := Config.setupFrameType, family := 0, kind := kind,
      flags := flags, sourceTag := allStations, targetTag := target, number := number, payload := payload,
      restart := false }
  else
    { dest := dest, source := s.conf.mac, frameType := s.conf.frameType, family := s.conf.family, kind := kind,
      flags := flags, sourceTag := s.conf.tag, targetTag := target, number := number, payload := payload,
      restart := false }

/-- The header's 14 bytes and the payload as they leave after the Ethernet frame type (R186, R195): family, kind, flags,
source tag, target tag, request number, payload length. -/
def TxFrame.wire (f : TxFrame) : List Byte :=
  beBytes 4 f.family.toNat ++ [f.kind, f.flags] ++ beBytes 2 f.sourceTag.toNat ++ beBytes 2 f.targetTag.toNat ++
    beBytes 2 f.number.toNat ++ beBytes 2 f.payload.length ++ f.payload

/-- A producer hands its frames to the transmit queue in turn: each joins while it holds fewer than 64, and the first that
finds it full waits with those behind it and with the producer's work that depends on them (R191, log 25). -/
def handOn (deed : Option Deed) (report : Bool) : List TxFrame → Link → Link
  | [], l => l
  | f :: fs, l =>
    if l.tx.length < 64 then handOn deed report fs { l with tx := l.tx ++ [f] }
    else { l with txWait := l.txWait ++ [{ frames := f :: fs, deed := deed, report := report }] }

/-- A producer hands frames on which no work of its own depends. -/
def handFrames (fs : List TxFrame) (l : Link) : Link := handOn none false fs l

/-- A producer hands frames (R191). -/
def transmit (fs : List TxFrame) (s : State) : State := { s with link := handFrames fs s.link }

/-- A producer hands frames and goes on with the work that depends on them, once they have joined the queue (R191): at
once where they all find room, else with the frames that wait. -/
def transmitThen (fs : List TxFrame) (deed : Deed) (go : State → State) (s : State) : State :=
  let l := handOn (some deed) false fs s.link
  if l.txWait.length = s.link.txWait.length then go { s with link := l } else { s with link := l }

/-- The REPLY to a request: result code, body and more flag, echoing its number, to its source (R190). -/
def replyFrameOf (s : State) (h : ReqHdr) (c : Code) (body : List Byte) (more : Bool) : TxFrame :=
  frame s h.mac 0x70 (if more then 0xE0 else 0xC0) h.tag h.number (codeByte c :: body)

/-- Answer a request (R190). -/
def answer (h : ReqHdr) (c : Code) (body : List Byte) (more : Bool) (s : State) : State :=
  transmit [replyFrameOf s h c body more] s

/-- A refusal: a result code with no body (R190). -/
def refuse (h : ReqHdr) (c : Code) (s : State) : State := answer h c [] false s

/-- The configuration and report block answers a request; its answers alone still leave a HALTED station (R191). -/
def answerReport (h : ReqHdr) (c : Code) (body : List Byte) (s : State) : State :=
  { s with link := handOn none true [replyFrameOf s h c body false] s.link }

/-- The DATA frames of a chunk from a given offset, 1,440 bytes each but the last (R190). -/
def dataFrames (s : State) (h : ReqHdr) : Nat → List (List Byte) → List TxFrame
  | _, [] => []
  | off, bs :: rest =>
    frame s h.mac 0x71 0xC0 h.tag h.number (beBytes 4 off ++ bs) :: dataFrames s h (off + bs.length) rest

/-- A chunk's answer: its DATA frames in offset order, then REPLY OK with no body (R190). -/
def answerChunk (h : ReqHdr) (bytes : List Byte) (s : State) : State :=
  transmit (dataFrames s h 0 (chunksOf 1440 (bytes.length + 1) bytes) ++ [replyFrameOf s h .ok [] false]) s

/-- An announcement to all stations of the family (R186). -/
def announceFrame (s : State) (kind : Byte) (payload : List Byte) : TxFrame :=
  frame s broadcastMac kind 0x80 allStations 0 payload

/-- The head frame leaves, and the oldest waiter's frame joins; a waiter with more frames hands the next in turn (R191).
What depends on the frames goes on once the last of them has joined. -/
def shiftTx (s : State) : State :=
  let l := { s.link with tx := s.link.tx.tail }
  match l.txWait with
  | [] => { s with link := l }
  | w :: waits =>
    let t : State := { s with link := handOn w.deed w.report w.frames { l with txWait := waits } }
    match w.deed with
    | none => t
    | some d => if t.link.txWait.length = waits.length then { t with mail := t.mail ++ [.deed d] } else t

/-! ### Peer lookups the link unit makes -/

/-- The index of a tag's entry in the peer table (R145). -/
def findPeer (tag : Tag) (s : State) : Option (Fin 32) :=
  (List.finRange 32).find? fun i =>
    match s.peers.table[i] with
    | some p => p.tag = tag
    | none => false

/-- A tag's entry in the peer table. -/
def peerOf (tag : Tag) (s : State) : Option Peer :=
  (findPeer tag s).bind fun i => s.peers.table[i]

/-- The heard state of a tag, or NO_ENTRY (R154). -/
def heardOf (tag : Tag) (s : State) : Option Heard := (peerOf tag s).map (·.heard)

/-- The AWAKE boxes in peer table order (R154). -/
def awakeBoxes (s : State) : List Tag :=
  s.peers.table.toList.filterMap fun p =>
    match p with
    | some p => if p.box ∧ p.heard = .awake then some p.tag else none
    | none => none

/-- "Another box awake": YES when some BOX entry is AWAKE (R154). -/
def anotherBoxAwake (s : State) : Bool := !(awakeBoxes s).isEmpty

/-- The MAC a request of this station goes to: the target's, or broadcast without an entry (R154). -/
def macFor (tag : Tag) (s : State) : Mac :=
  match peerOf tag s with
  | some p => p.mac
  | none => broadcastMac

/-! ### Outgoing request table -/

/-- The next request number: after 65,535 comes 1 (R192). -/
def nextNumber (n : ReqNumber) : ReqNumber := if n = 0xFFFF then 1 else n + 1

/-- The first number from `n` on that no entry holds; at most as many are passed over as entries stand (R192). -/
def freeNumber (held : List ReqNumber) : Nat → ReqNumber → ReqNumber
  | 0, n => n
  | fuel + 1, n => if held.contains n then freeNumber held fuel (nextNumber n) else n

/-- The kind code of an own request (R188). -/
def askCode (k : AskKind) : Byte :=
  match k with
  | .getRecipe => 0x30
  | .getChunk => 0x31
  | .catalogSince => 0x33

/-- Set the REPLY timer when the earliest entry has changed from what it was (R194). -/
def rearmReply (before : Option OutEntry) (s : State) : State :=
  match s.link.outgoing with
  | [] => stopTimer replyTimer s
  | e :: _ => if before = some e then s else startTimer replyTimer ((e.deadline - s.link.ticks).toInt) s

/-- Make an entry for a request, frame it and hand it over (R192). The new deadline is the latest, so the entry
stands last. -/
def sendAskNow (a : Ask) (s : State) : State :=
  let n := freeNumber (s.link.outgoing.map (·.number)) 8 s.link.nextNumber
  let e : OutEntry :=
    { number := n, target := a.target, kind := a.kind, asker := a.asker, deadline := s.link.ticks + 5120,
      made := s.link.made }
  let before := s.link.outgoing.head?
  let s := { s with link.outgoing := s.link.outgoing ++ [e], link.nextNumber := nextNumber n,
                    link.made := s.link.made + 1 }
  rearmReply before
    (transmit [frame s (macFor a.target s) (askCode a.kind) 0x80 a.target n a.payload] s)

/-- Send a request of this station, or wait for an entry when all 8 are in use (R192). -/
def sendAsk (a : Ask) (s : State) : State :=
  if s.link.outgoing.length < 8 then sendAskNow a s else { s with link.askWait := s.link.askWait ++ [a] }

/-- After an entry is freed the oldest asker waiting takes one (R192). -/
def admitAsk (s : State) : State :=
  match s.link.askWait with
  | [] => s
  | a :: rest =>
    if s.link.outgoing.length < 8 then sendAskNow a { s with link.askWait := rest } else s

/-- An asker withdraws its request: the entry is freed and the timer set again (R194). -/
def withdrawAsk (who : Asker) (s : State) : State :=
  let before := s.link.outgoing.head?
  let s := { s with link.outgoing := s.link.outgoing.filter (·.asker ≠ who),
                    link.askWait := s.link.askWait.filter (·.asker ≠ who) }
  admitAsk (rearmReply before s)

end Sys2Proof.Machine
end

