-- ==== Sys2Proof/Machine/Operands.lean ====
section
/-! DEFINITION. The operand forms of received frames: the station header, the payload layouts and the validation
of R187 and R188, with the layouts of R195. -/

namespace Sys2Proof.Machine

/-- Bytes `[off, off + n)` of a payload as a number, most significant first. -/
def fieldAt (bs : List Byte) (off n : Nat) : Nat := beNat ((bs.drop off).take n)

/-- A text field of at most `limit` bytes that fills the rest of the payload; length 0 is an absent text (R195). -/
def textField (limit : Nat) (bs : List Byte) : Option (Option (List Byte)) :=
  match bs with
  | [] => none
  | n :: rest =>
    if limit < n.toNat ∨ rest.length ≠ n.toNat then none
    else some (if rest.isEmpty then none else some rest)

/-- OPEN_SESSION: the kind, then for ALBUM the album number and the title (R62, R195; kind codes, log 15). -/
def parseOpen (h : ReqHdr) (p : List Byte) : Option Instr :=
  match p with
  | [0x00] => some (.openSession h .backup)
  | 0x01 :: n :: rest => (textField 32 rest).map fun t => .openSession h (.album n.toNat t)
  | _ => none

/-- BEGIN_OBJECT: object id, declared length and an optional caption (R65, R195, log 15). -/
def parseBegin (h : ReqHdr) (p : List Byte) : Option Instr :=
  let id := BitVec.ofNat 64 (fieldAt p 0 8)
  let len := fieldAt p 8 6
  if p.length < 14 then none
  else if p.length = 14 then some (.beginObject h id len none)
  else (textField 64 (p.drop 14)).map fun t => .beginObject h id len t

/-- GET_RECIPE by its form byte; the print form is malformed (R188). -/
def parseGetRecipe (h : ReqHdr) (p : List Byte) : Option Instr :=
  if p.length = 17 ∧ p.getD 0 0 = 0x00 then
    some (.getRecipeSnapshot h (BitVec.ofNat 32 (fieldAt p 1 4)) (BitVec.ofNat 64 (fieldAt p 5 8)) (fieldAt p 13 4))
  else if p.length = 14 ∧ p.getD 0 0 = 0x01 then
    some (.getRecipeAlbum h (fieldAt p 1 1) (BitVec.ofNat 64 (fieldAt p 2 8)) (fieldAt p 10 4))
  else none

/-- GET_CHUNK by its form byte (R188). -/
def parseGetChunk (h : ReqHdr) (p : List Byte) : Option Instr :=
  if p.length = 17 ∧ p.getD 0 0 = 0x00 then
    some (.getChunkSnapshot h (BitVec.ofNat 32 (fieldAt p 1 4)) (BitVec.ofNat 64 (fieldAt p 5 8)) (fieldAt p 13 4))
  else if p.length = 14 ∧ p.getD 0 0 = 0x01 then
    some (.getChunkAlbum h (fieldAt p 1 1) (BitVec.ofNat 64 (fieldAt p 2 8)) (fieldAt p 10 4))
  else if p.length = 21 ∧ p.getD 0 0 = 0x02 then some (.getChunkPrint h (elementOf (p.drop 1)))
  else none

/-- A payload of an exact length. -/
def exactly (n : Nat) (p : List Byte) (c : Instr) : Option Instr := if p.length = n then some c else none

/-- The request a payload of a request kind spells, or none where the layout does not allow it (R187, R195). -/
def parseRequest (kind : Byte) (h : ReqHdr) (p : List Byte) : Option Instr :=
  match kind with
  | 0x10 => parseOpen h p
  | 0x11 => parseBegin h p
  | 0x12 =>
    if p.length < 14 ∨ 1454 < p.length then none
    else some (.segment h (BitVec.ofNat 64 (fieldAt p 0 8)) (fieldAt p 8 6) (p.drop 14))
  | 0x13 => exactly 8 p (.endObject h (BitVec.ofNat 64 (fieldAt p 0 8)))
  | 0x14 => exactly 0 p (.closeSession h)
  | 0x15 => exactly 0 p (.abandonSession h)
  | 0x20 => exactly 0 p (.listSnapshots h)
  | 0x21 => exactly 8 p (.listObjects h (BitVec.ofNat 32 (fieldAt p 0 4)) (fieldAt p 4 4))
  | 0x22 => exactly 4 p (.dropSnapshot h (BitVec.ofNat 32 (fieldAt p 0 4)))
  | 0x30 => parseGetRecipe h p
  | 0x31 => parseGetChunk h p
  | 0x32 => exactly 5 p (.listAlbum h (fieldAt p 0 1) (fieldAt p 1 4))
  | 0x33 => exactly 6 p (.catalogSince h (BitVec.ofNat 16 (fieldAt p 0 2)) (fieldAt p 2 4))
  | 0x40 => exactly 0 p (.queryStation h)
  | 0x41 => exactly 1 p (.clearFlags h (p.getD 0 0))
  | 0x42 => exactly 48 p (.setConfig h (p.take 44) (BitVec.ofNat 32 (fieldAt p 44 4)))
  | _ => none

/-- The bodies of the kinds that are no requests (spec/11, "Central payloads"). A PRESENCE's concern bit and causes
are not kept (R148). -/
inductive Body where
  | presence (period seq : Nat)
  | doze (digest : Digest)
  | wake (reason : Byte)
  | holding (summaries : List Summary)
  | reply (code : Byte) (body : List Byte)
  | data (offset : Nat) (bytes : List Byte)
  | request (c : Instr)
  deriving DecidableEq, Repr

/-- A digest from its 256 bytes: bit n lies in byte floor(n / 8) at bit position n mod 8 (R195). -/
def digestOf (bs : List Byte) : Digest := BitVec.ofNat 2048 (beNat bs.reverse)

/-- A digest's 256 bytes (R195). -/
def digestBytes (d : Digest) : List Byte := (beBytes 256 d.toNat).reverse

/-- A summary from its 21 bytes (spec/11, HOLDING summary). -/
def summaryOf (bs : List Byte) : Summary :=
  { album := fieldAt bs 0 1, id := BitVec.ofNat 64 (fieldAt bs 1 8), origin := BitVec.ofNat 16 (fieldAt bs 9 2),
    seq := fieldAt bs 11 4, length := fieldAt bs 15 6 }

/-- A summary's 21 bytes. -/
def summaryBytes (m : Summary) : List Byte :=
  beBytes 1 m.album ++ beBytes 8 m.id.toNat ++ beBytes 2 m.origin.toNat ++ beBytes 4 m.seq ++ beBytes 6 m.length

/-- `n` summaries that fill the bytes exactly. -/
def summariesOf : Nat → List Byte → Option (List Summary)
  | 0, bs => if bs.isEmpty then some [] else none
  | n + 1, bs =>
    if bs.length < 21 then none else (summariesOf n (bs.drop 21)).map (summaryOf (bs.take 21) :: ·)

/-- The body an announcement or answer spells (R187, R195). -/
def parseOther (kind : Byte) (p : List Byte) : Option Body :=
  match kind with
  | 0x01 =>
    let causes := (p.getD 5 0 &&& 0x03).toNat
    if p.length < 6 ∨ 2 < causes ∨ p.length ≠ 6 + 3 * causes then none
    else some (.presence (fieldAt p 0 1) (fieldAt p 1 4))
  | 0x02 => if p.length = 256 then some (.doze (digestOf p)) else none
  | 0x03 => if p.length = 1 then some (.wake (p.getD 0 0)) else none
  | 0x04 =>
    let n := fieldAt p 0 1
    if n = 0 ∨ 32 < n then none else (summariesOf n (p.drop 1)).map .holding
  | 0x70 =>
    match p with
    | [] => none
    | c :: body => some (.reply c body)
  | 0x71 => if p.length < 5 ∨ 1444 < p.length then none else some (.data (fieldAt p 0 4) (p.drop 4))
  | _ => none

/-- Is the code that of a request kind (R188)? -/
def requestKind (k : Byte) : Bool :=
  k ∈ ([0x10, 0x11, 0x12, 0x13, 0x14, 0x15, 0x20, 0x21, 0x22, 0x30, 0x31, 0x32, 0x33, 0x40, 0x41, 0x42] : List Byte)

/-- Is the code that of an announcement (R188)? -/
def announcementKind (k : Byte) : Bool := k ∈ ([0x01, 0x02, 0x03, 0x04] : List Byte)

/-- Is the code that of an answer (R188)? -/
def answerKind (k : Byte) : Bool := k ∈ ([0x70, 0x71] : List Byte)

/-- What validation finds of a received frame (R187): discarded; a request answered BAD_REQUEST; or a validated
frame with its sender, its target tag, its more flag and its body. -/
inductive Verdict where
  | discard
  | bad (h : ReqHdr)
  | good (h : ReqHdr) (target : Tag) (more : Bool) (b : Body)
  deriving DecidableEq, Repr

/-- The validation of a received frame, test by test in the order of R187. -/
def validate (s : State) (f : RxFrame) : Verdict :=
  let unconf := s.power.station = .unconfigured
  let bs := f.bytes
  let kind := bs.getD 4 0
  let flags := bs.getD 5 0
  let source : Tag := BitVec.ofNat 16 (fieldAt bs 6 2)
  let target : Tag := BitVec.ofNat 16 (fieldAt bs 8 2)
  let len := fieldAt bs 12 2
  let h : ReqHdr := { tag := source, box := flags.getLsbD 7, number := BitVec.ofNat 16 (fieldAt bs 10 2), mac := f.source }
  let isReply := flags.getLsbD 6
  let wide := target = allStations
  let open40 := kind = 0x40 ∨ kind = 0x42
  if bs.length < 14 then .discard
  else if f.frameType ≠ (if unconf then Config.setupFrameType else s.conf.frameType) then .discard
  else if BitVec.ofNat 32 (fieldAt bs 0 4) ≠ (if unconf then 0 else s.conf.family) then .discard
  else if source = 0 ∨ source = allStations then .discard
  else if ¬ wide ∧ (unconf ∨ target ≠ s.conf.tag) ∧ kind ≠ 0x03 then .discard
  else if requestKind kind then
    if wide ∧ ¬ open40 then .discard
    else if isReply ∨ 1454 < len ∨ bs.length < 14 + len then .bad h
    else
      match parseRequest kind h ((bs.drop 14).take len) with
      | none => .bad h
      | some c => .good h target false (.request c)
  else if announcementKind kind ∨ answerKind kind then
    if isReply ≠ answerKind kind ∨ 1454 < len ∨ bs.length < 14 + len then .discard
    else
      match parseOther kind ((bs.drop 14).take len) with
      | none => .discard
      | some b => .good h target (flags.getLsbD 5) b
  else if isReply ∨ wide then .discard
  else .bad h

/-- The owner that takes a request, and whether it is offered as it arrives, past earlier requests of its tag
(R188, R189); none for what is no request. -/
def requestOwner (c : Instr) : Option (ReqHdr × ReqOwner × Bool) :=
  match c with
  | .openSession h _ => some (h, .sessions, false)
  | .beginObject h _ _ _ => some (h, .sessions, false)
  | .segment h _ _ _ => some (h, .sessions, false)
  | .endObject h _ => some (h, .sessions, false)
  | .closeSession h => some (h, .sessions, false)
  | .abandonSession h => some (h, .sessions, true)
  | .listSnapshots h => some (h, .sessions, true)
  | .listObjects h _ _ => some (h, .sessions, true)
  | .dropSnapshot h _ => some (h, .sessions, false)
  | .getRecipeSnapshot h _ _ _ => some (h, .sessions, true)
  | .getChunkSnapshot h _ _ _ => some (h, .sessions, true)
  | .listAlbum h _ _ => some (h, .catalog, false)
  | .getRecipeAlbum h _ _ _ => some (h, .catalog, false)
  | .getChunkAlbum h _ _ _ => some (h, .catalog, false)
  | .getChunkPrint h _ => some (h, .catalog, false)
  | .catalogSince h _ _ => some (h, .catalog, false)
  | .queryStation h => some (h, .report, false)
  | .clearFlags h _ => some (h, .report, false)
  | .setConfig h _ _ => some (h, .report, false)
  | _ => none

end Sys2Proof.Machine
end

