-- ==== Sys2Proof/Machine/Alloc.lean ====
section
/-! DEFINITION. The space allocator: block maps, healthy members, placement, allocation and freeing
(R34 to R38). -/

namespace Sys2Proof.Machine

/-- The first data-area block of every member (R35). -/
def firstDataBlock : Nat := 1572865

/-- The free count: the sum of the free runs (R36). -/
def BlockMap.freeCount (m : BlockMap) : Nat := (m.free.map (·.2)).sum

/-- A member has room for `n` blocks when some free run is that long (R37). -/
def BlockMap.hasRoom (m : BlockMap) (n : Nat) : Bool := m.free.any fun r => n ≤ r.2

/-- The data area of a member of `capacity` blocks, all free, with the cursor at its first block (R35, R36). -/
def BlockMap.fresh (capacity : Nat) : BlockMap :=
  { free := [(firstDataBlock, capacity - firstDataBlock)], cursor := firstDataBlock, last := capacity - 1 }

/-- Take blocks `[a, a + n)` out of rising free runs. -/
def removeRun (a n : Nat) : List (Nat × Nat) → List (Nat × Nat)
  | [] => []
  | (b, k) :: rest =>
    let head := if b < a ∧ b < a + n then [(b, min k (a - b))] else if a + n ≤ b then [(b, k)] else []
    let tail := if b < a + n ∧ a + n < b + k then [(a + n, b + k - (a + n))] else []
    head ++ tail ++ removeRun a n rest

/-- Put blocks `[a, a + n)` back among rising free runs, joining neighbours. -/
def addRun (a n : Nat) : List (Nat × Nat) → List (Nat × Nat)
  | [] => [(a, n)]
  | (b, k) :: rest =>
    if a + n < b then (a, n) :: (b, k) :: rest
    else if b + k < a then (b, k) :: addRun a n rest
    else addRun (min a b) (max (a + n) (b + k) - min a b) rest

/-- The first block at or after `from` that begins `n` free blocks within one run (R38). -/
def findFrom (start n : Nat) : List (Nat × Nat) → Option Nat
  | [] => none
  | (b, k) :: rest =>
    let a := max b start
    if a + n ≤ b + k then some a else findFrom start n rest

/-- Where an allocation of `n` blocks falls: the first run from the cursor, else from the first data-area block
(R38, log 9). -/
def BlockMap.search (m : BlockMap) (n : Nat) : Option Nat :=
  match findFrom m.cursor n m.free with
  | some a => some a
  | none => findFrom firstDataBlock n m.free

/-- Allocate the run found: the cursor moves to the block after it, or to the first data-area block when the run
ends the area (R38). -/
def BlockMap.take (m : BlockMap) (a n : Nat) : BlockMap :=
  { m with free := removeRun a n m.free, cursor := if m.last < a + n then firstDataBlock else a + n }

/-- Free a run; the cursor does not move (R38). -/
def BlockMap.give (m : BlockMap) (a n : Nat) : BlockMap :=
  if n = 0 then m else { m with free := addRun a n m.free }

/-- The slot of the member with this number. -/
def slotOf (number : Nat) (s : State) : Option DiskPort :=
  (List.finRange 4).find? fun d =>
    match s.alloc.members[d] with
    | some m => m.number = number
    | none => false

/-- PRESENT members in the member table (R30, R34). -/
def presentMembers (s : State) : Nat :=
  (s.alloc.members.toList.filter fun m => match m with | some m => m.map.isSome | none => false).length

/-- A member is healthy when it is PRESENT and its disk is STANDBY, SPINUP or READY (R37). -/
def healthy (d : DiskPort) (s : State) : Bool :=
  (match s.alloc.members[d] with | some m => m.map.isSome | none => false) &&
    (match (s.ports.port[d]).spin with
      | .standby => true
      | .spinup => true
      | .ready => true
      | .absent => false
      | .faulted => false)

/-- Healthy members (R37). -/
def healthyMembers (s : State) : Nat := ((List.finRange 4).filter fun d => healthy d s).length

/-- A copy is a missing copy when its member is MISSING (or no longer in the table) or its disk is FAULTED
(R18, R34). -/
def missingCopy (p : Place) (s : State) : Bool :=
  match slotOf p.member s with
  | none => true
  | some d =>
    (match s.alloc.members[d] with | some m => m.map.isNone | none => true) ||
      (s.ports.port[d]).spin = .faulted

/-- The free count of a slot's member, 0 where it holds none (R59). A MISSING member has no block map (R36) and shows 0 too:
R59 gives no number for it (DESIGN CHOICE, log 41). -/
def freeOf (d : DiskPort) (s : State) : Nat :=
  match s.alloc.members[d] with
  | some { map := some m, .. } => m.freeCount
  | _ => 0

/-- May one copy of `n` blocks go to this slot: healthy, with room, not excluded (R37). -/
def canPlace (n : Nat) (excluded : List Nat) (d : DiskPort) (s : State) : Bool :=
  healthy d s &&
    match s.alloc.members[d] with
    | some { number := k, map := some m } => m.hasRoom n && !excluded.contains k
    | _ => false

/-- The slot with the largest free count, ties to the lower port (R37). -/
def largestFree (s : State) : List DiskPort → Option DiskPort
  | [] => none
  | d :: ds =>
    match largestFree s ds with
    | none => some d
    | some e => if freeOf d s < freeOf e s then some e else some d

/-- The member for one copy: READY disks first, then STANDBY or SPINUP (R37). -/
def choosePlace (n : Nat) (excluded : List Nat) (s : State) : Option DiskPort :=
  let able := (List.finRange 4).filter fun d => canPlace n excluded d s
  match largestFree s (able.filter fun d => (s.ports.port[d]).spin = .ready) with
  | some d => some d
  | none => largestFree s able

/-- Replace the block map of a slot's member. -/
def setMap (d : DiskPort) (f : BlockMap → BlockMap) (s : State) : State :=
  match s.alloc.members[d] with
  | some { number := k, map := some m } =>
    { s with alloc.members := put s.alloc.members d (some { number := k, map := some (f m) }) }
  | _ => s

/-- Place one copy of `n` blocks: choose a member, allocate, and name the place; none is NO_SPACE (R37, R38). -/
def placeOne (n : Nat) (excluded : List Nat) (s : State) : Option (DiskPort × Place × State) :=
  match choosePlace n excluded s with
  | none => none
  | some d =>
    match s.alloc.members[d] with
    | some { number := k, map := some m } =>
      match m.search n with
      | some a => some (d, { member := k, first := a }, setMap d (fun m => m.take a n) s)
      | none => none
    | _ => none

/-- Free `n` blocks at a place; blocks named on a MISSING member are freed nowhere (R38). -/
def freeBlocks (p : Place) (n : Nat) (s : State) : State :=
  match slotOf p.member s with
  | some d => setMap d (fun m => m.give p.first n) s
  | none => s

/-- Mark `n` blocks at a place as allocated, in the rebuild of the block maps (R36). -/
def markBlocks (p : Place) (n : Nat) (s : State) : State :=
  match slotOf p.member s with
  | some d => setMap d (fun m => { m with free := removeRun p.first n m.free }) s
  | none => s

/-- Offer a command to the port of a place's member (R28). -/
def offerAt (member : Nat) (cmd : DiskCmd) (s : State) : State :=
  match slotOf member s with
  | some d => post (.commandOffer d cmd) s
  | none => s

/-- The commands that cover `n` blocks from `first`, at most 256 blocks each (R43): first block and count. -/
def splitBlocks : Nat → Nat → Nat → List (Nat × Nat)
  | 0, _, _ => []
  | fuel + 1, first, n =>
    if n = 0 then [] else (first, min 256 n) :: splitBlocks fuel (first + min 256 n) (n - min 256 n)

/-- Queue the WRITEs of an extent at META class, 204 elements to a block, at most 256 blocks each (R39, R43, R75). -/
def offerExtentWrites (r : Requester) (p : Place) (elements : List ChunkId) (s : State) : State :=
  (splitBlocks (extentBlocks elements.length) p.first (extentBlocks elements.length)).foldl
    (fun s (at', n) =>
      offerAt p.member
        { requester := r, cls := .metadata,
          op := .write at' n (.elements ((elements.drop ((at' - p.first) * 204)).take (n * 204))) } s) s

/-- Ask for an extent for a recipe and queue its WRITEs (R39); a recipe of 0 elements has none. -/
def placeExtent (r : Requester) (elements : List ChunkId) (excluded : List Nat) (again : Bool) (s : State) :
    ExtentState × State :=
  if elements.isEmpty then (.absent, s)
  else
    match placeOne (extentBlocks elements.length) excluded s with
    | none => (.failed, s)
    | some (_, p, s) =>
      (.writing p elements.length elements
          (splitBlocks (extentBlocks elements.length) p.first (extentBlocks elements.length)).length false again,
        offerExtentWrites r p elements s)

/-- A WRITE of an extent ends (R39): when every WRITE of the placement has ended, the extent is written, or it is
freed and placed once more, whole, on another member, or it has failed. -/
def extentWriteEnded (r : Requester) (good : Bool) (e : ExtentState) (s : State) : ExtentState × State :=
  match e with
  | .writing p n elements out bad again =>
    let bad := bad || !good
    if 1 < out then (.writing p n elements (out - 1) bad again, s)
    else if !bad then (.written { place := p, count := n }, s)
    else
      let s := freeBlocks p (extentBlocks n) s
      if again then (.failed, s) else placeExtent r elements [p.member] true s
  | other => (other, s)

/-- Free an extent (R39). -/
def freeExtent (e : Extent) (s : State) : State := freeBlocks e.place (extentBlocks e.count) s

end Sys2Proof.Machine
end

