-- ==== Sys2Proof/Machine/Intake.lean ====
section
/-! DEFINITION. The intake queue: offering, taking and deferring requests (R189). -/

namespace Sys2Proof.Machine

/-- May a request be offered now: it is offered as it arrives, or no earlier request of its tag to its owner stands
before it (R189). -/
def mayOffer (before : List IntakeItem) (c : Instr) : Bool :=
  match requestOwner c with
  | none => true
  | some (h, o, free) =>
    free || before.all fun i =>
      match requestOwner i.cmd with
      | some (h', o', _) => h'.tag ≠ h.tag || o' ≠ o
      | none => true

/-- Offer every request that may be offered, in order of arrival (R189): the queue afterwards and the offers made. -/
def offerItems : List IntakeItem → List IntakeItem → List IntakeItem × List Instr
  | _, [] => ([], [])
  | before, i :: rest =>
    let (items, cmds) := offerItems (before ++ [i]) rest
    if i.standing = .queued ∧ mayOffer before i.cmd then
      ({ i with standing := .offered } :: items, i.cmd :: cmds)
    else (i :: items, cmds)

/-- The link unit makes its offers (R189). -/
def offerRequests (s : State) : State :=
  let (items, cmds) := offerItems [] s.link.intake
  postAll cmds { s with link.intake := items }

/-- The owner takes a request: it leaves the queue (R189). -/
def takeRequest (c : Instr) (s : State) : State :=
  offerRequests { s with link.intake := dropFirst (·.cmd = c) s.link.intake }

/-- The owner defers a request: it stays in its place (R189). A request that reached its owner past the queue
joins the queue's end, or meets BUSY at a full queue, as an arrival does (log 1). -/
def deferRequest (h : ReqHdr) (c : Instr) (s : State) : State :=
  let mine : IntakeItem → Bool := fun i => i.cmd = c && i.standing ≠ .deferred
  if s.link.intake.any mine then
    { s with link.intake := changeFirst mine (fun i => { i with standing := .deferred }) s.link.intake }
  else if s.link.intake.length < 32 then
    { s with link.intake := s.link.intake ++ [{ cmd := c, standing := .deferred }] }
  else refuse h .busy s

/-- Is this a request of the given owner? -/
def ownedBy (o : ReqOwner) (c : Instr) : Bool :=
  match requestOwner c with
  | some (_, o', _) => o' = o
  | none => false

/-- The owner can take again: its deferred requests are offered afresh, oldest first (R189). -/
def execOwnerReady (o : ReqOwner) (s : State) : Host.Outcome State Fault Refusal :=
  .next (offerRequests
    { s with link.intake := s.link.intake.map (fun i =>
        if i.standing = .deferred ∧ ownedBy o i.cmd then { i with standing := .queued } else i) })

end Sys2Proof.Machine
end

