-- ==== Sys2Proof/Machine/Ports.lean ====
section
/-! DEFINITION. The disk ports and the spin-up arbiter (R41 to R58). A port's step gives the state and, in order,
what it tells others; Machine/Disk delivers that. -/

namespace Sys2Proof.Machine

/-- What a port tells: the final outcome of a command to its requester (R53), its fault to the allocator and the
checkpoint unit (R52), or an answer to the power unit (R56). -/
inductive PortWord where
  | ended (r : Requester) (res : DiskResult) (data : ReadData)
  | fault
  | say (c : Instr)
  deriving DecidableEq, Repr

/-- Change a port's record. -/
def setPort (d : DiskPort) (f : PortRec → PortRec) (s : State) : State :=
  { s with ports.port := put s.ports.port d (f s.ports.port[d]) }

/-- Start DISK_IDLE[d] at the configured idle delay (R54); in COLD_START no timer starts before the entry into AWAKE
(R179; log 38). Where cold start ends in HALTED instead, the starts held back fall away, and one that falls in HALTED is
made, for R162 lets the ports go on: R179 names no moment there (DESIGN CHOICE, log 38). -/
def startDiskIdle (d : DiskPort) (s : State) : State :=
  if s.power.station = .coldStart then s else startTimer (diskIdleTimer d) s.conf.diskIdle s

/-- Does the final outcome of this class restart DISK_IDLE (R54)? -/
def restartsIdle (c : ServiceClass) : Bool :=
  match c with
  | .serve => true
  | .metadata => true
  | .store => true
  | .copying => false
  | .scrub => false

/-! ### The arbiter -/

/-- Ports in SPINUP (R46). -/
def inSpinup (s : State) : Nat := (s.ports.port.toList.filter fun p => p.spin = .spinup).length

/-- Grant to the oldest waiting ports while fewer than L are in SPINUP; a granted port asks its disk to spin up and
arms its watch (R46, R47). At most as many grants as `fuel`. -/
def grantSpinups : Nat → State → State
  | 0, s => s
  | fuel + 1, s =>
    match s.ports.waiting with
    | [] => s
    | d :: rest =>
      if inSpinup s < s.conf.spinLimit then
        grantSpinups fuel
          (setPort d (fun p => { p with spin := .spinup, grant := true, watch := some s.now, spinAgain := false })
            { s with ports.waiting := rest })
      else s

/-- A port asks for a spin-up grant, at most once while it waits (R45). -/
def askSpinup (d : DiskPort) (s : State) : State :=
  if d ∈ s.ports.waiting then s else grantSpinups 4 { s with ports.waiting := s.ports.waiting ++ [d] }

/-- A port leaves the waiting order (R52, R56). -/
def withdrawSpinup (d : DiskPort) (s : State) : State :=
  { s with ports.waiting := s.ports.waiting.filter (· ≠ d) }

/-! ### The command queue -/

/-- A READ or WRITE names 1..256 blocks within the capacity (R43). -/
def inRange (capacity : Nat) (op : DiskOp) : Bool :=
  match op with
  | .read first n => 1 ≤ n && n ≤ 256 && first + n ≤ capacity
  | .write first n _ => 1 ≤ n && n ≤ 256 && first + n ≤ capacity
  | .flush => true

/-- Commands in the queue, the one in flight among them (R48). -/
def PortRec.queued (p : PortRec) : Nat := p.queue.length + (if p.flight.isSome then 1 else 0)

/-- The rank of a class, 1 the highest (R49). -/
def classRank (c : ServiceClass) : Nat :=
  match c with
  | .serve => 1
  | .metadata => 2
  | .store => 3
  | .copying => 4
  | .scrub => 5

/-- The next command: the oldest of the highest class present (R49). -/
def nextCommand (queue : List DiskCmd) : Option DiskCmd :=
  queue.foldl
    (fun best c =>
      match best with
      | none => some c
      | some b => if classRank c.cls < classRank b.cls then some c else some b) none

/-- A port sends an attempt to its disk: the attempt takes the next number, and the watch is armed (R50; log 37). -/
def PortRec.send (now : Word) (p : PortRec) : PortRec := { p with attempt := p.attempt + 1, watch := some now }

/-- Issue STANDBY: DISK_IDLE stops and the watch is armed (R54, R55, R56). -/
def issueStandby (park : Bool) (d : DiskPort) (s : State) : State :=
  setPort d (fun p => { p.send s.now with standby := some { again := false, park := park } })
    (stopTimer (diskIdleTimer d) s)

/-- A READY port with nothing in flight starts the next command; with park pending and an empty queue it issues the
park's STANDBY (R49, R50, R56). -/
def startNext (d : DiskPort) (s : State) : State :=
  let p := s.ports.port[d]
  if p.spin = .ready ∧ p.flight.isNone ∧ p.standby.isNone then
    match nextCommand p.queue with
    | some c =>
      setPort d (fun p => { p.send s.now with queue := p.queue.erase c, flight := some (c, false) }) s
    | none => if p.parkPending then issueStandby true d s else s
  else s

/-- A command ends FAILED for its block range (R43): on a READY disk that final outcome restarts DISK_IDLE as any other does
(R53, R54). On a disk in STANDBY or SPINUP the timer stays stopped (DESIGN CHOICE, log 12). -/
def failRange (d : DiskPort) (c : DiskCmd) (s : State) : State × List PortWord :=
  (if (s.ports.port[d]).spin = .ready ∧ restartsIdle c.cls then startDiskIdle d s else s,
    [.ended c.requester .failed .nothing])

/-- A port takes an offered command by its spin state (R43, R48): it ends at once, enters the queue, or joins the offer
line. -/
def takeOffer (d : DiskPort) (c : DiskCmd) (s : State) : State × List PortWord :=
  let p := s.ports.port[d]
  let scrub := c.cls = .scrub
  if p.spin = .absent ∨ p.spin = .faulted then
    (s, [.ended c.requester (if scrub then .skipped else .diskFault) .nothing])
  else if scrub ∧ p.spin ≠ .ready then (s, [.ended c.requester .skipped .nothing])
  else if !inRange p.capacity c.op then failRange d c s
  else if 32 ≤ p.queued then (setPort d (fun p => { p with offers := p.offers ++ [c] }) s, [])
  else
    let s := setPort d (fun p => { p with queue := p.queue ++ [c] }) s
    (startNext d (if p.spin = .standby then askSpinup d s else s), [])

/-- A block offers a command; while one of its commands stands in the offer line it keeps the further ones back
(R48). -/
def offerCommand (d : DiskPort) (c : DiskCmd) (s : State) : State × List PortWord :=
  if (s.ports.port[d]).offers.any (fun o => userOf o.requester = userOf c.requester) then
    (setPort d (fun p => { p with backlog := p.backlog ++ [c] }) s, [])
  else takeOffer d c s

/-- While there is room in the queue, the head of the offer line enters it, taken as newly offered (R48). -/
def admitOffers (d : DiskPort) : Nat → State → State × List PortWord
  | 0, s => (s, [])
  | fuel + 1, s =>
    let p := s.ports.port[d]
    match p.offers with
    | [] => (s, [])
    | c :: rest =>
      if 32 ≤ p.queued then (s, [])
      else
        let a := takeOffer d c (setPort d (fun p => { p with offers := rest }) s)
        let b := admitOffers d fuel a.1
        (b.1, a.2 ++ b.2)

/-- Commands kept back are offered in the order their blocks would have offered them; a block one of whose commands stands
in the offer line goes on keeping the later ones (R48). -/
def offerKept (d : DiskPort) : List DiskCmd → State → State × List PortWord
  | [], s => (s, [])
  | c :: cs, s =>
    let a := offerCommand d c s
    let b := offerKept d cs a.1
    (b.1, a.2 ++ b.2)

/-- Room has come about in a port's queue: the offer line enters it, oldest first, then come the commands kept back, and the
next command starts (R48, R49). The spec does not order the line's entry and the choice of the next command: here a command
of the line that enters can be the one chosen (DESIGN CHOICE, log 42). -/
def refill (d : DiskPort) (s : State) : State × List PortWord :=
  let p := s.ports.port[d]
  let a := admitOffers d p.offers.length s
  let b := offerKept d p.backlog (setPort d (fun p => { p with backlog := [] }) a.1)
  (startNext d b.1, a.2 ++ b.2)

/-! ### Failures and outcomes -/

/-- The generation of the checkpoint that wrote with this requester (R135, R137; log 36). -/
def checkpointOf (r : Requester) : Option Word :=
  match r with
  | .ckptPages g _ => some g
  | .ckptFirstFlush g => some g
  | .ckptRoot g => some g
  | .ckptLastFlush g => some g
  | _ => none

/-- A checkpoint's commands that its unit keeps back for a port fall away: a failed member is offered nothing more (R48,
R137). -/
def dropKept (d : DiskPort) (gen : Word) (s : State) : State :=
  setPort d (fun p => { p with backlog := p.backlog.filter (fun c => checkpointOf c.requester ≠ some gen) }) s

/-- A command ends FAILED: where a checkpoint wrote it, what is kept back behind it falls away before the port has room again
(R48, R137). -/
def failedCommand (d : DiskPort) (c : DiskCmd) (s : State) : State :=
  match checkpointOf c.requester with
  | some gen => dropKept d gen s
  | none => s

/-- The disk becomes FAULTED (R52), after the outcome of the command that failed. The commands that blocks keep back (R48)
end in this step too, after those of the offer line, as commands offered to a FAULTED disk: R52 names the queue and the line
alone (DESIGN CHOICE, log 12). -/
def faultPort (d : DiskPort) (s : State) : State × List PortWord :=
  let p := s.ports.port[d]
  let ends := (p.queue ++ p.offers).map (fun c => PortWord.ended c.requester .diskFault .nothing)
  let kept := p.backlog.map (fun c =>
    PortWord.ended c.requester (if c.cls = .scrub then .skipped else .diskFault) .nothing)
  let s := setPort d (fun p =>
    { p with spin := .faulted, queue := [], offers := [], backlog := [], flight := none, standby := none,
             grant := false, watch := none, parkPending := false }) s
  let s := setFlag .diskFault (stopTimer (diskIdleTimer d) (grantSpinups 4 (withdrawSpinup d s)))
  (s, ends ++ kept ++ [.fault] ++ (if p.parkPending then [.say (.parked d)] else []))

/-- The final outcome of the command in flight (R51, R54). -/
def endCommand (d : DiskPort) (c : DiskCmd) (good : Bool) (data : ReadData) (s : State) : State × List PortWord :=
  let failures := if good then 0 else (s.ports.port[d]).failures + 1
  let s := setPort d (fun p => { p with flight := none, watch := none, failures := failures }) s
  let s := if restartsIdle c.cls then startDiskIdle d s else s
  let word := PortWord.ended c.requester (if good then .done else .failed) (if good then data else .nothing)
  let s := if good then s else failedCommand d c s
  let (s, w) := if 3 ≤ failures then faultPort d s else refill d s
  (s, word :: w)

/-- The disk has become STANDBY (R48, R54, R55): SCRUB commands end SKIPPED, others ask for a grant, and a PARK is
answered (R56). -/
def becomeStandby (d : DiskPort) (st : StandbyRec) (s : State) : State × List PortWord :=
  let p := s.ports.port[d]
  let skipped := (p.queue.filter (fun c => c.cls = .scrub)).map (fun c =>
    PortWord.ended c.requester .skipped .nothing)
  let s := setPort d (fun p =>
    { p with spin := .standby, standby := none, watch := none, failures := 0,
             queue := p.queue.filter (fun c => c.cls ≠ .scrub) }) (stopTimer (diskIdleTimer d) s)
  let (s, w) := refill d s
  let empty := (s.ports.port[d]).queue.isEmpty
  let s := if !empty ∧ (s.ports.port[d]).spin = .standby then askSpinup d s else s
  if p.parkPending ∧ (st.park ∨ empty) then
    (setPort d (fun p => { p with parkPending := false }) s, skipped ++ w ++ [.say (.parked d)])
  else (s, skipped ++ w)

/-- A STANDBY has failed after its retry (R51, R55, R56). Where it is the third failure in a row and park is pending, R56 has
the port answer PARK_FAILED with the disk READY, and R52 and R56 have a disk that becomes FAULTED answer PARKED: here the disk
is FAULTED and PARKED is the one answer (DESIGN CHOICE, log 47). -/
def failStandby (d : DiskPort) (st : StandbyRec) (s : State) : State × List PortWord :=
  let p := s.ports.port[d]
  let failures := p.failures + 1
  let s := setPort d (fun p => { p with standby := none, watch := none, failures := failures }) s
  if 3 ≤ failures then faultPort d s
  else
    let s := startDiskIdle d s
    if p.parkPending ∧ (st.park ∨ p.queue.isEmpty) then
      let s := setPort d (fun p => { p with parkPending := false }) s
      (startNext d s, [.say (.parkFailed d)])
    else (startNext d s, [])

/-- An attempt ends, in success or failure (R50, R51, R55); a report that belongs to no attempt is discarded. -/
def endAttempt (d : DiskPort) (good : Bool) (data : ReadData) (s : State) : State × List PortWord :=
  let p := s.ports.port[d]
  match p.flight, p.standby with
  | some (c, again), _ =>
    if good ∨ again then endCommand d c good data s
    else (setPort d (fun p => { p.send s.now with flight := some (c, true) }) s, [])
  | none, some st =>
    if good then becomeStandby d st s
    else if st.again then failStandby d st s
    else (setPort d (fun p => { p.send s.now with standby := some { st with again := true } }) s, [])
  | none, none => (s, [])

/-- The disk reports the end of an attempt (R50): of the one in flight, or of a dropped one, whose report is discarded
(log 37). -/
def reportAttempt (d : DiskPort) (ended : AttemptEnd) (data : ReadData) (s : State) :
    State × List PortWord :=
  if (s.ports.port[d]).attempt = ended.attempt then endAttempt d ended.good data s else (s, [])

/-! ### Spin-up -/

/-- The disk reports ready (R42, R47, R54): on the first READY after cold start the port reads block 0. A report of the first
request that comes once its watch has run out is taken as the second one's (DESIGN CHOICE, log 48). -/
def spinReady (d : DiskPort) (s : State) : State × List PortWord :=
  let p := s.ports.port[d]
  if p.spin = .spinup then
    let s := setPort d (fun p => { p with spin := .ready, grant := false, watch := none }) s
    let s := startDiskIdle d (grantSpinups 4 s)
    if p.labelDone then (startNext d s, [])
    else
      let (s, w) := takeOffer d { requester := .labelRead, cls := .metadata, op := .read 0 1 } s
      (startNext d s, w)
  else (s, [])

/-- A spin-up attempt ends without the disk ready: a second attempt, or FAULTED (R47). An error report of the first request
that comes once its watch has run out and the link was reset ends the second attempt, and a ready report of it makes the disk
READY (`spinReady`): R47 does not say, and R50 discards the late report of a command alone (DESIGN CHOICE, log 48). -/
def spinTimeout (d : DiskPort) (s : State) : State × List PortWord :=
  let p := s.ports.port[d]
  if p.spin = .spinup then
    if p.spinAgain then faultPort d s
    else (setPort d (fun p => { p with spinAgain := true, watch := some s.now }) s, [])
  else (s, [])

/-- Has a port's watch run out: station seconds have reached the value at arming plus 31 (R47, R50)? -/
def watchOut (d : DiskPort) (s : State) : Bool :=
  match (s.ports.port[d]).watch with
  | some w => 31 ≤ (s.now - w).toNat
  | none => false

/-- The events of the watches that run out at this station second (R47, R50). -/
def watchEvents (s : State) : List Instr :=
  (List.finRange 4).filterMap (fun d =>
    let p := s.ports.port[d]
    if p.watch = some (s.now - 31) then
      some (if p.spin = .spinup then .spinupWatchExpiry d else .commandWatchExpiry d)
    else none)

/-! ### Detection and parking -/

/-- A port has settled its label: ABSENT, FAULTED, or its label READ has ended (R42). -/
def labelSettled (p : PortRec) : Bool :=
  p.detected && (p.spin = .absent || p.spin = .faulted || p.labelDone)

/-- Once every port has settled its label the checkpoint unit begins to read roots (R42, R141). -/
def tellSettled (s : State) : State :=
  if s.cold = .ports ∧ s.ports.port.toList.all labelSettled then post .rootReadStart s else s

/-- Detected ports ask for a grant in port order: a port asks once every lower port has been detected (R42, R46). -/
def askDetected : List DiskPort → State → State
  | [], s => s
  | d :: ds, s =>
    let p := s.ports.port[d]
    if !p.detected then s
    else askDetected ds (if p.spin = .standby ∧ !p.labelDone then askSpinup d s else s)

/-- A port's link bring-up ends (R42). -/
def detect (d : DiskPort) (capacity : Option Nat) (s : State) : State :=
  let p : PortRec :=
    match capacity with
    | none => { PortRec.reset with detected := true }
    | some n =>
      { PortRec.reset with detected := true, spin := .standby, label := .unread, capacity := min n 4294967295 }
  tellSettled (askDetected (List.finRange 4) (setPort d (fun _ => p) s))

/-- A port's answer to PARK by its state (R56). -/
def parkPort (d : DiskPort) (s : State) : State :=
  let p := s.ports.port[d]
  match p.spin with
  | .absent => post (.parked d) s
  | .faulted => post (.parked d) s
  | .standby =>
    if p.queue.isEmpty then post (.parked d) (withdrawSpinup d s)
    else setPort d (fun p => { p with parkPending := true }) s
  | .spinup => setPort d (fun p => { p with parkPending := true }) s
  | .ready => startNext d (setPort d (fun p => { p with parkPending := true }) s)

/-- UNPARK (R57): park pending falls, and a park's STANDBY in flight runs on as an idle one. DISK_IDLE stands as R54 left
it: it stops for a park only as the park's STANDBY is issued (`issueStandby`), so none is left to be started here. -/
def unparkPort (d : DiskPort) (s : State) : State :=
  setPort d (fun p =>
    { p with parkPending := false, standby := p.standby.map (fun st => { st with park := false }) }) s

/-- An expiry of DISK_IDLE[d] (R55, R56): STANDBY on a READY disk with an empty queue, else the timer restarts. -/
def idleExpiry (d : DiskPort) (s : State) : State :=
  let p := s.ports.port[d]
  if p.spin = .ready then
    if p.queued = 0 ∧ p.standby.isNone ∧ !p.parkPending then issueStandby false d s else startDiskIdle d s
  else s

end Sys2Proof.Machine
end

