-- ==== Sys2Proof/Machine/Peers.lean ====
section
/-! DEFINITION. The peer directory: the peer table (R145 to R151), the station's own PRESENCE and DOZE (R152, R153),
its queries (R154) and the wake proxy (R155 to R159). -/

namespace Sys2Proof.Machine

/-- What kind of frame the directory takes (R147). -/
inductive PeerFrame where
  | presence (period seq : Nat)
  | doze (digest : Digest)
  | other
  deriving DecidableEq, Repr

/-- Change an entry of the peer table. -/
def setPeer (i : Fin 32) (f : Peer → Peer) (s : State) : State :=
  { s with peers.table := put s.peers.table i ((s.peers.table[i]).map f) }

/-- The heard state after a frame; `none` stands for a new entry (R147). A frame with the BOX flag clear from the station of a
DOZING or ASLEEP entry, a case R147's dash takes as not arising, leaves the state as it is, though R146 makes the entry's kind
CLIENT (DESIGN CHOICE, log 47). -/
def heardAfter (f : PeerFrame) (box : Bool) (old : Option Heard) : Heard :=
  match f with
  | .presence _ _ => .awake
  | .doze _ =>
    if box then .dozing
    else
      match old with
      | some .dozing => .dozing
      | some .asleep => .asleep
      | _ => .awake
  | .other =>
    match old with
    | some .dozing => .dozing
    | some .asleep => .asleep
    | _ => .awake

/-- What a frame does to its sender's entry beyond the heard state (R148, R149). A newest origin seq above 65,536, outside the
range of R145, is kept whole (DESIGN CHOICE, log 42). -/
def peerContent (f : PeerFrame) (now : Word) (p : Peer) : Peer :=
  match f with
  | .presence period seq =>
    { p with period := max 10 (min 120 period), digest := none, dozeAt := none,
             newestSeq := if p.box then seq else p.newestSeq }
  | .doze digest => if p.box then { p with digest := some digest, dozeAt := some now } else p
  | .other => p

/-- A new entry from the first frame heard (R145). -/
def newPeer (h : ReqHdr) (now : Word) : Peer :=
  { tag := h.tag, box := h.box, mac := h.mac, heard := .awake, lastHeard := now, dozeAt := none, period := 120,
    newestSeq := 0, digest := none, proxy := .idle }

/-- The first index of the table whose entry satisfies `p` and has the smallest last heard (R146; log 21). -/
def oldestPeer (p : Peer → Bool) (s : State) : Option (Fin 32) :=
  (List.finRange 32).foldl
    (fun best i =>
      match s.peers.table[i] with
      | none => best
      | some e =>
        if !p e then best
        else
          match best with
          | none => some i
          | some j =>
            match s.peers.table[j] with
            | none => some i
            | some b => if e.lastHeard < b.lastHeard then some i else some j) none

/-- The entry a full table gives up (R146). A CLIENT entry left DOZING or ASLEEP (`heardAfter`) can be the one, though R146's
text has ASLEEP entries never chosen (DESIGN CHOICE, log 47). -/
def victimPeer (s : State) : Option (Fin 32) :=
  match oldestPeer (fun e => e.heard = .unreachable) s with
  | some i => some i
  | none => oldestPeer (fun e => !e.box && decide (600 ≤ (s.now - e.lastHeard).toNat)) s

/-- Where a new entry goes: the lowest empty index, else the evicted entry's (R146). -/
def peerRoom (s : State) : Option (Fin 32) :=
  match (List.finRange 32).find? (fun i => (s.peers.table[i]).isNone) with
  | some i => some i
  | none => victimPeer s

/-- Stop PROXY[p], free the slot and make the entry's proxy state IDLE (R156, R158). -/
def freeSlot (i : Fin 32) (p : ProxyNo) (s : State) : State :=
  let s := stopTimer (proxyTimer p) s
  setPeer i (fun e => { e with proxy := .idle }) { s with peers.slots := put s.peers.slots p none }

/-- End the proxy wake of a tag's entry, in either stage (R156, R158). -/
def endProxy (tag : Tag) (s : State) : State :=
  match findPeer tag s with
  | none => s
  | some i =>
    match s.peers.table[i] with
    | some { proxy := .delay p, .. } => freeSlot i p s
    | some { proxy := .waiting p, .. } => freeSlot i p s
    | _ => s

/-- The directory takes a frame from its sender (R145 to R149, R156, R158). -/
def hearPeer (h : ReqHdr) (f : PeerFrame) (s : State) : State :=
  if h.tag = s.conf.tag then s
  else
    match findPeer h.tag s with
    | some i =>
      endProxy h.tag (setPeer i (fun e =>
        peerContent f s.now
          { e with lastHeard := s.now, mac := h.mac, box := h.box, heard := heardAfter f h.box (some e.heard) }) s)
    | none =>
      match peerRoom s with
      | none => s
      | some i =>
        let e := peerContent f s.now { newPeer h s.now with heard := heardAfter f h.box none }
        { s with peers.table := put s.peers.table i (some e) }

/-- A WAKE heard from another station ends slots in WAKE_DELAY: its target's, or all for FFFFH (R156). -/
def standDown (target : Tag) (s : State) : State :=
  (List.finRange 32).foldl
    (fun s i =>
      match s.peers.table[i] with
      | some { tag := t, proxy := .delay _, .. } => if target = allStations ∨ t = target then endProxy t s else s
      | _ => s) s

/-- The judgement of an entry at a SILENCE check (R150). -/
def judgePeer (now : Word) (e : Peer) : Peer :=
  match e.heard with
  | .dozing =>
    match e.dozeAt with
    | some at0 => if e.box ∧ 3 ≤ (now - at0).toNat then { e with heard := .asleep } else e
    | none => e
  | .awake => if 3 * e.period ≤ (now - e.lastHeard).toNat then { e with heard := .silent } else e
  | .asleep => e
  | .silent => e
  | .unreachable => e

/-- Examine every entry (R150, R151). -/
def sweepPeers (s : State) : State :=
  { s with peers.table := s.peers.table.map (fun e => e.map (judgePeer s.now)) }

/-! ### Own PRESENCE and DOZE -/

/-- The PRESENCE of this station with the given wake causes (R152, R195). -/
def presenceFrame (causes : List LatchEntry) (s : State) : TxFrame :=
  announceFrame s 0x01
    (beBytes 1 s.conf.presencePeriod ++ beBytes 4 s.catalog.announced ++
      [(if ledB s then 0x80 else 0x00) ||| BitVec.ofNat 8 causes.length] ++
      causes.flatMap (fun c => beBytes 2 c.source.toNat ++ [c.cause]))

/-- Send PRESENCE; it waits for room as every producer does (R152). -/
def sendPresence (causes : List LatchEntry) (s : State) : State := transmit [presenceFrame causes s] s

/-- Start BEACON at the configured period (R152). -/
def startBeacon (s : State) : State := startTimer beaconTimer s.conf.presencePeriod s

/-- The two digest positions of a photo id (R153). -/
def digestBits (id : PhotoId) : Nat × Nat := (id.toNat % 2048, id.toNat / 2048 % 2048)

/-- The digest of the HELD photos (R153). -/
def ownDigest (s : State) : Digest :=
  s.catalog.photos.foldl
    (fun d p =>
      if p.state = .held then
        d ||| (1#2048 <<< (digestBits p.id).1) ||| (1#2048 <<< (digestBits p.id).2)
      else d) 0

/-- Stop BEACON and send DOZE with the digest (R153). -/
def sendDoze (s : State) : State :=
  let s := stopTimer beaconTimer s
  transmit [announceFrame s 0x02 (digestBytes (ownDigest s))] s

/-! ### Queries and the proxy -/

/-- Does a digest match a photo id (R112, R154)? -/
def digestMatches (id : PhotoId) (d : Digest) : Bool :=
  d.getLsbD (digestBits id).1 && d.getLsbD (digestBits id).2

/-- The lowest tag among ASLEEP boxes whose digest matches (R154). -/
def digestHolder (id : PhotoId) (s : State) : Option Tag :=
  s.peers.table.toList.foldl
    (fun best e =>
      match e with
      | some { tag := t, box := true, heard := .asleep, digest := some d, .. } =>
        if digestMatches id d then
          match best with
          | none => some t
          | some b => if t < b then some t else some b
        else best
      | _ => best) none

/-- The directory's answers to PROXY_WAKE (R155). -/
inductive ProxyAnswer where
  | active | notProxied | noSlot | started
  deriving DecidableEq, Repr

/-- PROXY_WAKE with a target tag (R155). A request offered in AWAKE and served after a button press has passed the sleep test
takes its slot in DOZING: R155 tests no station state, though R160 has slots in AWAKE alone (DESIGN CHOICE, log 41). -/
def proxyWake (target : Tag) (s : State) : ProxyAnswer × State :=
  match findPeer target s with
  | none => (.notProxied, s)
  | some i =>
    match s.peers.table[i] with
    | none => (.notProxied, s)
    | some e =>
      if e.proxy ≠ .idle then (.active, s)
      else if target = s.conf.tag ∨ !e.box ∨ e.heard ≠ .asleep then (.notProxied, s)
      else
        match (List.finRange 8).find? (fun p => (s.peers.slots[p]).isNone) with
        | none => (.noSlot, s)
        | some p =>
          (.started,
            startTimer (proxyTimer p) (128 * (s.conf.tag.toNat % 8 : Nat))
              (setPeer i (fun e => { e with proxy := .delay p })
                { s with peers.slots := put s.peers.slots p (some target) }) 30720)

/-- BEACON expiry (R152): a beacon while AWAKE, skipped when the transmit queue is full. -/
def execBeaconExpiry (s : State) : Host.Outcome State Fault Refusal :=
  .next (unlessHalted (fun s =>
    match takeExpiry beaconTimer .first s with
    | none => s
    | some s => if s.station = .awake ∧ s.link.tx.length < 64 then sendPresence [] s else s) s)

/-- SILENCE expiry (R150). -/
def execSilenceExpiry (s : State) : Host.Outcome State Fault Refusal :=
  .next (unlessHalted (fun s =>
    match takeExpiry silenceTimer .first s with
    | none => s
    | some s => sweepPeers s) s)

/-- The first expiry of PROXY[p]: WAKE with reason PROXY leaves, and the slot waits (R157). -/
def execProxyStage1Expiry (p : ProxyNo) (s : State) : Host.Outcome State Fault Refusal :=
  .next (unlessHalted (fun s =>
    match takeExpiry (proxyTimer p) .first s with
    | none => s
    | some s =>
      match s.peers.slots[p] with
      | none => s
      | some target =>
        let s := transmit [frame s broadcastMac 0x03 0x80 target 0 [0x01]] s
        match findPeer target s with
        | none => s
        | some i => setPeer i (fun e => { e with proxy := .waiting p }) s) s)

/-- The second expiry of PROXY[p]: the target is UNREACHABLE and the slot free (R158). -/
def execProxyStage2Expiry (p : ProxyNo) (s : State) : Host.Outcome State Fault Refusal :=
  .next (unlessHalted (fun s =>
    match takeExpiry (proxyTimer p) .second s with
    | none => s
    | some s =>
      match s.peers.slots[p] with
      | none => s
      | some target =>
        let s := { s with peers.slots := put s.peers.slots p none }
        match findPeer target s with
        | none => s
        | some i =>
          setPeer i (fun e => { e with heard := .unreachable, digest := none, dozeAt := none, proxy := .idle }) s) s)

end Sys2Proof.Machine
end

