-- ==== Sys2Proof/Machine/Catalog.lean ====
section
/-! DEFINITION. The album catalog's tables: photo entries and holder lists (R88 to R90), origins and catch-up
(R91, R97 to R100), HOLDING (R94, R95), the wanted list (R96, R101, R102) and the start of a fetch (R103). -/

namespace Sys2Proof.Machine

/-! ### Photo entries -/

/-- Is this the photo with the given key (R89)? -/
def keyIs (album : Nat) (id : PhotoId) (p : Photo) : Bool := p.album = album && p.id = id

/-- The position of the first element that satisfies `p`, counted from `n`. -/
def positionFrom (p : α → Bool) : Nat → List α → Option Nat
  | _, [] => none
  | n, x :: xs => if p x then some n else positionFrom p (n + 1) xs

/-- The position of the entry with a key; entries stand in the order they were made (R89). -/
def findPhoto (album : Nat) (id : PhotoId) (s : State) : Option Nat :=
  positionFrom (keyIs album id) 0 s.catalog.photos

/-- Catalog reservations outstanding, kept in the sessions (R72, R89). -/
def reservations (s : State) : Nat :=
  (s.sessions.table.toList.map (fun x => match x with | some x => x.reservations | none => 0)).sum

/-- Is a position neither in use nor reserved (R89)? -/
def positionFree (s : State) : Bool := s.catalog.photos.length + reservations s < 65536

/-- Change a photo entry and report the change. -/
def setPhoto (pos : Nat) (f : Photo → Photo) (s : State) : State :=
  noteChange (.photo pos) { s with catalog.photos := changeAt f pos s.catalog.photos }

/-- Make a photo entry at the lowest free position (R89); the counts of its album move with it (R88). -/
def addPhoto (p : Photo) (s : State) : State :=
  noteChanges [.album p.album, .photo s.catalog.photos.length] { s with catalog.photos := s.catalog.photos ++ [p] }

/-- A photo's album counts it among the HELD ones from now on (R88). -/
def noteHeld (pos : Nat) (s : State) : State :=
  match s.catalog.photos[pos]? with
  | some p => noteChange (.album p.album) s
  | none => s

/-- A holder joins the list: four tags at most, the "more" mark beyond (R90). -/
def addHolder (tag : Tag) (p : Photo) : Photo :=
  if tag ∈ p.holders then p
  else if p.holders.length < 4 then { p with holders := p.holders ++ [tag] }
  else { p with more := true }

/-- The own tag joins the list when the photo becomes HELD here (R90). -/
def ownJoins (tag : Tag) (p : Photo) : Photo :=
  if tag ∈ p.holders then p
  else if p.holders.length < 4 then { p with holders := p.holders ++ [tag] }
  else { p with holders := p.holders.take 3 ++ [tag], more := true }

/-- The holder count: the tags listed, or 5 with the "more" mark (R90). -/
def holderCount (p : Photo) : Nat := if p.more then 5 else p.holders.length

/-- The fetch delay in seconds: 2 x ((own tag mod 8) + 1) (R96). -/
def fetchDelay (s : State) : Nat := 2 * (s.conf.tag.toNat % 8 + 1)

/-- A photo's summary (R94). -/
def summaryFor (p : Photo) : Summary :=
  { album := p.album, id := p.id, origin := p.origin, seq := p.seq, length := p.length }

/-! ### The wanted list -/

/-- Start WANTED for the head, or stop it when the list is empty (R101). -/
def restartWanted (s : State) : State :=
  match s.catalog.wanted with
  | [] => stopTimer wantedTimer s
  | w :: _ => startTimer wantedTimer ((w.due.toNat : Int) - (s.now.toNat : Int)) s

/-- Restart WANTED when the head has changed (R101). -/
def rearmWanted (before : Option WantedItem) (s : State) : State :=
  if s.catalog.wanted.head? = before then s else restartWanted s

/-- An entry joins the wanted list by its due, after those of equal due (R101; log 21). -/
def joinWanted (pos : Nat) (due : Word) (s : State) : State :=
  let before := s.catalog.wanted.head?
  let item : WantedItem := { pos := pos, due := due }
  rearmWanted before
    { s with catalog.wanted := insertBy (fun a b => a.due < b.due) item s.catalog.wanted }

/-- The head leaves the wanted list (R101, R102). -/
def leaveWanted (s : State) : State :=
  rearmWanted s.catalog.wanted.head? { s with catalog.wanted := s.catalog.wanted.tail }

/-- A photo goes on the wanted list, or becomes KNOWN when the list is full (R96, R107). -/
def makeWanted (pos : Nat) (due : Word) (s : State) : State :=
  if s.catalog.wanted.length < 1024 then
    joinWanted pos due (setPhoto pos (fun p => { p with state := .wanted }) s)
  else setPhoto pos (fun p => { p with state := .known }) s

/-- The wanting test on an entry (R96). -/
def wantingTest (pos : Nat) (s : State) : State :=
  match s.catalog.photos[pos]? with
  | none => s
  | some p =>
    if p.state = .known ∧ holderCount p < s.conf.target ∧ s.catalog.wanted.all (fun w => w.pos ≠ pos) ∧
        s.catalog.wanted.length < 1024 then
      makeWanted pos (s.now + BitVec.ofNat 32 (fetchDelay s)) s
    else s

/-! ### Origins -/

/-- The index of an origin's entry. -/
def findOrigin (tag : Tag) (s : State) : Option Nat := positionFrom (fun o : Origin => o.tag = tag) 0 s.catalog.origins

/-- The caught-up seq of an origin, 0 without an entry (R91). -/
def caughtUp (tag : Tag) (s : State) : Nat :=
  match s.catalog.origins.find? (fun o => o.tag = tag) with
  | some o => o.caughtUp
  | none => 0

/-- Make an origin's entry with caught-up seq 0 if it is absent and there is room; the own tag has none (R91). -/
def makeOrigin (tag : Tag) (s : State) : State :=
  if tag = s.conf.tag ∨ (findOrigin tag s).isSome ∨ 32 ≤ s.catalog.origins.length then s
  else
    noteChange (.origin s.catalog.origins.length)
      { s with catalog.origins := s.catalog.origins ++ [{ tag := tag, caughtUp := 0 }] }

/-- A summary from its own origin advances that origin when it is the next seq (R97). -/
def advanceOrigin (sender : Tag) (m : Summary) (s : State) : State :=
  if m.origin ≠ sender ∨ sender = s.conf.tag then s
  else
    let s := makeOrigin sender s
    match findOrigin sender s with
    | none => s
    | some i =>
      if m.seq = caughtUp sender s + 1 then
        noteChange (.origin i)
          { s with catalog.origins := changeAt (fun o => { o with caughtUp := m.seq }) i s.catalog.origins }
      else s

/-! ### Summaries -/

/-- Is a summary one to be ignored for its fields (R95)? An origin seq of 0 or above 65,536 and a length of 2^40 or more,
outside the ranges of R89, are not among R95's tests: such a summary is recorded whole (DESIGN CHOICE, log 44). -/
def summaryBad (m : Summary) : Bool :=
  m.origin = 0 || m.origin = allStations || decide (31 < m.album) || (m.id = 0 && decide (m.length ≠ 0))

/-- One summary, with its sender as the holder (R95, R96, R97). -/
def handleSummary (sender : Tag) (m : Summary) (s : State) : State :=
  if summaryBad m then s
  else
    match findPhoto m.album m.id s with
    | some pos =>
      match s.catalog.photos[pos]? with
      | none => s
      | some p =>
        if p.origin = m.origin ∧ p.seq = m.seq ∧ p.length = m.length then
          let s := if addHolder sender p = p then s else setPhoto pos (addHolder sender) s
          advanceOrigin sender m (wantingTest pos s)
        else s
    | none =>
      if positionFree s then
        let pos := s.catalog.photos.length
        let s := addPhoto
          { album := m.album, id := m.id, origin := m.origin, seq := m.seq, length := m.length, caption := none,
            state := .known, holders := [sender], more := false, extent := none } s
        advanceOrigin sender m (wantingTest pos s)
      else s

/-- The summaries of a frame or page, in order (R95, R99). -/
def handleSummaries (sender : Tag) : List Summary → State → State
  | [], s => s
  | m :: ms, s => handleSummaries sender ms (handleSummary sender m s)

/-- A HOLDING that reaches the catalog (R95). -/
def takeHolding (h : ReqHdr) (ms : List Summary) (s : State) : State :=
  if !h.box ∨ h.tag = s.conf.tag then s
  else if s.station = .awake ∨ s.station = .dozing then handleSummaries h.tag ms s
  else s

/-- A HOLDING frame of up to 32 summaries (R94). -/
def holdingFrame (ms : List Summary) (s : State) : TxFrame :=
  announceFrame s 0x04 (beBytes 1 ms.length ++ ms.flatMap summaryBytes)

/-- Broadcast photos, 32 summaries to a frame, one frame after another (R94). -/
def announcePhotos (ms : List Summary) (s : State) : State :=
  transmit ((chunksOf 32 (ms.length + 1) ms).map (fun g => holdingFrame g s)) s

/-! ### Catch-up -/

/-- An origin joins the pending list, once, up to 32 (R98). -/
def joinPending (tag : Tag) (s : State) : State :=
  if tag ∈ s.catalog.pending ∨ 32 ≤ s.catalog.pending.length then s
  else { s with catalog.pending := s.catalog.pending ++ [tag] }

/-- A box joins the pending list when the origin table has its entry or makes one (R98). -/
def wantCatchup (tag : Tag) (s : State) : State :=
  let s := makeOrigin tag s
  if (findOrigin tag s).isSome then joinPending tag s else s

/-- The pending list is emptied and filled with the AWAKE boxes, when the entry into AWAKE asked for it (R98). -/
def fillPending (s : State) : State :=
  if s.catalog.fillDue then
    (awakeBoxes s).foldl (fun s t => wantCatchup t s) { s with catalog.fillDue := false, catalog.pending := [] }
  else s

/-- Call for the next conversation when one can begin (R98). -/
def callCatchup (s : State) : State :=
  if s.station = .awake ∧ s.catalog.talk.isNone ∧ !s.catalog.pending.isEmpty then post .catchupStart s else s

/-- A newest origin seq handed on from a PRESENCE (R98, R148). In PARKING too it makes the origin's entry, and starts
CHECKPOINT with it, after SAVED as before: R98 names no station state, though R170 and R172 count on DRAM and image staying
level (DESIGN CHOICE, log 41). -/
def hearSeq (h : ReqHdr) (seq : Nat) (s : State) : State :=
  if !h.box ∨ h.tag = s.conf.tag ∨ seq ≤ caughtUp h.tag s then s
  else callCatchup (wantCatchup h.tag s)

/-- Send CATALOG_SINCE for the conversation (R99). -/
def askSince (origin : Tag) (after : Nat) (s : State) : State :=
  sendAsk { asker := .catchup, target := origin, kind := .catalogSince,
            payload := beBytes 2 origin.toNat ++ beBytes 4 after }
    { s with catalog.talk := some { origin := origin, after := after } }

/-- The oldest pending origin that is AWAKE begins a conversation; the others before it are passed over (R98). -/
def beginTalk : List Tag → State → State
  | [], s => { s with catalog.pending := [] }
  | t :: ts, s =>
    if heardOf t s = some .awake then askSince t (caughtUp t s) { s with catalog.pending := ts }
    else beginTalk ts s

/-- The conversation ends, and the next pending origin is called for (R98, R99). -/
def endTalk (s : State) : State := callCatchup { s with catalog.talk := none }

/-- A reply to CATALOG_SINCE, or none for TIMEOUT: a code, a body and the more flag (R99). An OK whose body is malformed,
empty or not filled by the summaries it counts, ends the conversation: R99 has no line for it (DESIGN CHOICE, log 40). A
page that counts more than the 32 summaries of R100 is handled whole: R99 sets no bound (DESIGN CHOICE, log 47). -/
def talkReply (reply : Option (Byte × List Byte × Bool)) (s : State) : State :=
  match s.catalog.talk, reply with
  | none, _ => s
  | some _, none => endTalk s
  | some t, some (code, body, more) =>
    if s.station = .parking ∨ code ≠ codeByte .ok then endTalk s
    else
      match body with
      | [] => endTalk s
      | n :: rest =>
        match summariesOf n.toNat rest with
        | none => endTalk s
        | some [] => endTalk s
        | some ms =>
          let s := handleSummaries t.origin ms s
          let after := ms.foldl (fun a m => max a m.seq) t.after
          if more then askSince t.origin after s else endTalk s

/-- CATCHUP_START (R98). -/
def execCatchupStart (s : State) : Host.Outcome State Fault Refusal :=
  .next (ownerWork .catchupStart (fun s =>
    let s := fillPending s
    if s.station = .awake ∧ s.catalog.talk.isNone then beginTalk s.catalog.pending s else s) s)

/-! ### Fetches begin -/

/-- The next serial after this one: from FFFFFFFFH to 1 (R64, R103). -/
def nextSerial (n : Word) : Word := if n = 0xFFFFFFFF then 1 else n + 1

/-- Change a fetch and report the change. -/
def setFetch (f : FetchNo) (g : Fetch → Fetch) (s : State) : State :=
  noteChange (.fetch f.val) { s with catalog.fetches := put s.catalog.fetches f ((s.catalog.fetches[f]).map g) }

/-- Elements of a fetch take a new standing, or join the recipe buffer or leave it: each slot's page is changed (R73, R131). -/
def noteFetchElements (f : FetchNo) (ps : List Nat) (s : State) : State := noteChanges (ps.map (.fetchElement f.val)) s

/-- Ask the source for a recipe page from a first index (R103, R104). -/
def askRecipe (f : FetchNo) (source : Tag) (p : Photo) (first : Nat) (s : State) : State :=
  sendAsk { asker := .fetch f, target := source, kind := .getRecipe,
            payload := [0x01] ++ beBytes 1 p.album ++ beBytes 8 p.id.toNat ++ beBytes 4 first }
    (setFetch f (fun x => { x with outstanding := some .getRecipe }) s)

/-- A FREE context starts the fetch of a photo from a source (R102, R103). -/
def startFetch (f : FetchNo) (pos : Nat) (p : Photo) (source : Tag) (s : State) : State :=
  let fetch : Fetch :=
    { serial := s.catalog.nextSerial, photo := pos, source := source, phase := .recipe, count := 0, caption := none,
      elems := [], next := 0, outstanding := none, buffer := none, more := false, extent := .absent }
  let s := { s with catalog.nextSerial := nextSerial s.catalog.nextSerial,
                    catalog.fetches := put s.catalog.fetches f (some fetch) }
  askRecipe f source p 0 (setPhoto pos (fun p => { p with state := .fetching }) s)

/-- A FREE fetch context: R102 says only that one starts the fetch, and the lower number does (DESIGN CHOICE, log 40). -/
def freeFetch (s : State) : Option FetchNo := (List.finRange 2).find? (fun f => (s.catalog.fetches[f]).isNone)

/-- Take up the due heads of the wanted list, one after another (R102). -/
def takeHeads : Nat → State → State
  | 0, s => s
  | fuel + 1, s =>
    match s.catalog.wanted with
    | [] => s
    | w :: _ =>
      if s.now < w.due then restartWanted s
      else
        match s.catalog.photos[w.pos]? with
        | none => takeHeads fuel (leaveWanted s)
        | some p =>
          if s.conf.target ≤ holderCount p then
            takeHeads fuel (setPhoto w.pos (fun p => { p with state := .known }) (leaveWanted s))
          else
            match freeFetch s with
            | none => s
            | some f =>
              match p.holders.find? (fun t => heardOf t s = some .awake) with
              | none => takeHeads fuel (joinWanted w.pos (s.now + 600) (leaveWanted s))
              | some source => takeHeads fuel (startFetch f w.pos p source (leaveWanted s))

/-- The head of the wanted list is taken up while the station is AWAKE (R102). -/
def takeUpWanted (s : State) : State :=
  if s.station = .awake then takeHeads (s.catalog.wanted.length + 1) s else s

/-- WANTED expiry (R102). -/
def execWantedExpiry (s : State) : Host.Outcome State Fault Refusal :=
  .next (ownerWork .wantedExpiry (fun s =>
    match takeExpiry wantedTimer .first s with
    | none => s
    | some s => takeUpWanted s) s)

end Sys2Proof.Machine
end

