-- ==== Sys2Proof/Machine/Power.lean ====
section
/-! DEFINITION. The power and clock unit: the entry into AWAKE (R176), SLEEP_DELAY and the sleep test (R164, R165),
the button (R166), the doze (R167 to R169), parking (R170 to R172), the wake latch and the wake sequence (R173 to
R175), the SXT fault (R178), ticks (R163, R180), and the timer operations (R181, R182). -/

namespace Sys2Proof.Machine

/-- The four kinds of entry into AWAKE (R176). -/
inductive AwakeKind where
  | coldStart | wake | dozeCancelled | parkingEnded
  deriving DecidableEq, Repr

/-- Start SLEEP_DELAY at the sleep delay (R164). -/
def startSleepDelay (s : State) : State := startTimer sleepDelayTimer s.conf.sleepDelay s

/-! ### Holding timers -/

/-- The array holds every timer but WAKE_STAB (R185). -/
def holdTimers (s : State) : State :=
  { s with timers := Vector.ofFn (fun t : TimerNo =>
      if t = wakeStabTimer then s.timers[t] else { s.timers[t] with held := true }) }

/-- The expiry commands that wait on a timer's pending list, oldest first (R183, R185). -/
def pendingExpiries (t : TimerNo) (s : State) : List Instr :=
  (s.timers[t]).pending.map (fun r => expiryCommand t r.stage)

/-- The array releases every held timer, and the pending expiries go to their owners (R185): those of several timers by timer
number, behind the messages that wait already (DESIGN CHOICE, log 44). -/
def releaseTimers (s : State) : State :=
  let due := (List.finRange 25).flatMap (fun t => if (s.timers[t]).held then pendingExpiries t s else [])
  postAll due { s with timers := s.timers.map (fun t => { t with held := false }) }

/-! ### Entry into AWAKE -/

/-- What the peer directory does at an entry into AWAKE (R151, R152, R160, R176). -/
def directoryAwake (k : AwakeKind) (s : State) : State :=
  match k with
  | .coldStart => startTimer silenceTimer 10 (startBeacon (sendPresence [] s))
  | .wake => startBeacon (sendPresence s.power.latch (sweepPeers s))
  | .dozeCancelled => startBeacon (sendPresence [] s)
  | .parkingEnded => startBeacon (sendPresence [] s)

/-- The wake profile at the end of a wake: READY asks a grant for each STANDBY port, in port order (R58). -/
def wakeProfile (s : State) : State :=
  if s.conf.wakeReady then
    (List.finRange 4).foldl (fun s d => if (s.ports.port[d]).spin = .standby then askSpinup d s else s) s
  else s

/-- What the album catalog does at an entry into AWAKE (R98, R101, R176). -/
def catalogAwake (s : State) : State :=
  let s := restartWanted { s with catalog.fillDue := true }
  callCatchup (asWork (.cmd .catchupStart) fillPending s)

/-- The timers whose start fell in COLD_START are started at its end: DISK_IDLE of every READY disk and, with the image
CHANGED, CHECKPOINT (R54, R134, R179; log 38). -/
def startHeldBack (s : State) : State :=
  let s := if s.ckpt.changed then startTimer checkpointTimer 600 s else s
  (List.finRange 4).foldl (fun s d => if (s.ports.port[d]).spin = .ready then startDiskIdle d s else s) s

/-- The entry into AWAKE (R176). UNHUSH goes out at every one (R130); where parking ends, with the rest of what is
withdrawn (R171). At the end of a wake the peer table is swept before the catalog fills its catch-up pending list: R151 leaves
open which is taken first (DESIGN CHOICE, log 46). -/
def enterAwake (k : AwakeKind) (s : State) : State :=
  let s := { s with power.station := .awake, power.step := .none }
  let s := if k = .wake then releaseTimers s else s
  let s := directoryAwake k (startSleepDelay s)
  let s :=
    match k with
    | .coldStart => post .unhush (startHeldBack (startTimer scrubTimer 3600 s))
    | .wake => post .unhush (wakeProfile { s with power.latch := [] })
    | .dozeCancelled => post .unhush s
    | .parkingEnded => s
  catalogAwake s

/-! ### Ending a doze or parking -/

/-- The doze is cancelled (R168). -/
def cancelDoze (s : State) : State := enterAwake .dozeCancelled (stopTimer dozeHoldTimer s)

/-- Is the station parking and not yet in the final step? -/
def parkingOpen (s : State) : Bool := s.power.station = .parking && s.power.step ≠ .final

/-- Parking ends early: the step in progress and those before it are withdrawn (R171). -/
def endParking (s : State) : State :=
  let sent : List Instr :=
    match s.power.step with
    | .none => [.unhush]
    | .hush => [.unhush]
    | .save => [.unhush, .parkSaveWithdraw]
    | .park => [.unhush, .unpark 0, .unpark 1, .unpark 2, .unpark 3]
    | .final => []
  enterAwake .parkingEnded (postAll sent { s with power.parkCancel := true })

/-- The link unit reports a request taken (R164, R168, R171). -/
def requestTaken (s : State) : State :=
  if s.power.station = .awake then startSleepDelay s
  else if s.power.station = .dozing then cancelDoze s
  else if parkingOpen s then endParking s
  else s

/-- A WAKE for this station handed on by the directory (R177). -/
def wakeHeard (s : State) : State :=
  if s.power.station = .awake then startSleepDelay s
  else if s.power.station = .dozing then cancelDoze s
  else if parkingOpen s then endParking s
  else s

/-- A peer box's DOZE handed on by the directory (R164, R169). -/
def peerDozed (tag : Tag) (s : State) : State :=
  if s.power.station = .awake then extendTimer sleepDelayTimer s.conf.dozeSpread s
  else if s.power.station = .dozing ∧ !s.conf.allowLastSleeper ∧ !anotherBoxAwake s ∧ tag < s.conf.tag then
    cancelDoze s
  else s

/-! ### The sleep test -/

/-- No entry is WRITING and none has a recopy record (R165). -/
def indexAtRest (s : State) : Bool :=
  s.index.entries.all (fun e => e.2.state ≠ .writing && e.2.recopy.isNone)

/-- The sleep test (R165). -/
def sleepTest (s : State) : Bool :=
  s.sessions.table.toList.all (·.isNone) && s.catalog.fetches.toList.all (·.isNone) && s.link.outgoing.isEmpty &&
    s.peers.slots.toList.all (·.isNone) && s.sessions.retire.all (·.blocked) && indexAtRest s &&
    !s.power.sxtFault && (anotherBoxAwake s || s.conf.allowLastSleeper)

/-- The station enters DOZING (R167). -/
def enterDozing (s : State) : State :=
  startTimer dozeHoldTimer 2048
    (sendDoze { stopTimer sleepDelayTimer s with power.station := .dozing })

/-- The sleep test is made (R165). -/
def makeSleepTest (s : State) : State := if sleepTest s then enterDozing s else startSleepDelay s

/-- SLEEP_DELAY expiry (R165). -/
def execSleepDelayExpiry (s : State) : Host.Outcome State Fault Refusal :=
  .next (match takeExpiry sleepDelayTimer .first s with
    | none => s
    | some s => if s.power.station = .awake then makeSleepTest s else s)

/-- DOZE_HOLD expiry: PARKING begins at its first step (R167, R170). -/
def execDozeHoldExpiry (s : State) : Host.Outcome State Fault Refusal :=
  .next (match takeExpiry dozeHoldTimer .first s with
    | none => s
    | some s =>
      if s.power.station = .dozing then
        post .hush { s with power.station := .parking, power.step := .hush, power.parkCancel := false,
                            power.parkedPorts := [] }
      else s)

/-! ### The wake latch and the wake sequence -/

/-- The first-stage count of WAKE_STAB by the stabilization choice (R174). -/
def stabCount (choice : Nat) : Nat := if choice = 0 then 1024 else if choice = 1 then 4096 else 16384

/-- Start RXT and WAKE_STAB: step 1 of the wake sequence (R174). -/
def startRxt (s : State) : State :=
  startTimer wakeStabTimer (stabCount s.conf.stabChoice) { s with power.rxtOn := true, power.pllOn := false } 1024

/-- The wake sequence begins with lock attempt 1 (R174). -/
def startWake (s : State) : State :=
  startRxt { s with power.station := .waking, power.lockAttempt := 1 }

/-- An entry is offered to the wake latch (R173). -/
def offerLatch (e : LatchEntry) (s : State) : State :=
  if s.power.latch.length < 2 then
    let s := { s with power.latch := s.power.latch ++ [e] }
    if s.power.station = .asleep then startWake s else s
  else setFlag .wakeOverrun s

/-- The listener's filter: a WAKE of the own family for this station passes into the latch (R173). R173 tests no payload
length: a frame that ends before the reason byte is discarded, and else the byte in its place is the cause whatever length the
header states (DESIGN CHOICE, log 43). -/
def listen (f : RxFrame) (s : State) : State :=
  let target : Tag := BitVec.ofNat 16 (fieldAt f.bytes 8 2)
  if f.bytes.length < 15 ∨ f.frameType ≠ s.conf.frameType ∨ BitVec.ofNat 32 (fieldAt f.bytes 0 4) ≠ s.conf.family ∨
      f.bytes.getD 4 0 ≠ 0x03 ∨ (target ≠ s.conf.tag ∧ target ≠ allStations) then s
  else offerLatch { source := BitVec.ofNat 16 (fieldAt f.bytes 6 2), cause := f.bytes.getD 14 0 } s

/-- The listener hears one frame after another (R172). -/
def listenAll : List RxFrame → State → State
  | [], s => s
  | f :: fs, s => listenAll fs (listen f s)

/-- A frame reaches the listener (R160, R172, R173): in the final step of parking it is held in the receive buffer. -/
def execListenerWake (f : RxFrame) (s : State) : Host.Outcome State Fault Refusal :=
  .next (if !s.link.up then s
    else if s.power.station = .asleep ∨ s.power.station = .waking then listen f s
    else if s.power.station = .parking ∧ s.power.step = .final then
      { s with link.rxHeld := s.link.rxHeld ++ [f] }
    else s)

/-- A button press (R166). -/
def execButtonPress (s : State) : Host.Outcome State Fault Refusal :=
  .next (match s.power.station with
    | .awake => makeSleepTest s
    | .dozing => cancelDoze s
    | .parking =>
      if s.power.step = .final then offerLatch { source := s.conf.tag, cause := 0 } s else endParking s
    | .asleep => offerLatch { source := s.conf.tag, cause := 0 } s
    | .waking => offerLatch { source := s.conf.tag, cause := 0 } s
    | .coldStart => s
    | .unconfigured => s
    | .halted => s)

/-- WAKE_STAB, first stage: the PLL is started (R174). -/
def execWakeStabStage1Expiry (s : State) : Host.Outcome State Fault Refusal :=
  .next (match takeExpiry wakeStabTimer .first s with
    | none => s
    | some s => if s.power.station = .waking then { s with power.pllOn := true } else s)

/-- The PLL reports lock (R174, R175): the link comes back from the listener at full speed, with both queues empty; a report
that meets no PLL waiting for it is discarded. -/
def execPllLock (s : State) : Host.Outcome State Fault Refusal :=
  .next (if s.power.station = .waking ∧ s.power.pllOn then
      enterAwake .wake
        { stopTimer wakeStabTimer s with power.selfRefresh := false, power.listener := false, link.intake := [],
                                         link.tx := [], link.txWait := [], link.speed := .full }
    else s)

/-! ### Parking -/

/-- QUIET: parking goes on with the SAVE step (R170, R171). -/
def execQuiet (s : State) : Host.Outcome State Fault Refusal :=
  .next (if s.power.station = .parking ∧ s.power.step = .hush ∧ !s.power.parkCancel then
      post .parkSave { s with power.step := .save }
    else s)

/-- SAVED: parking goes on with the PARK step (R170, R171). -/
def execSaved (s : State) : Host.Outcome State Fault Refusal :=
  .next (if s.power.station = .parking ∧ s.power.step = .save ∧ !s.power.parkCancel then
      postAll [.park 0, .park 1, .park 2, .park 3] { s with power.step := .park }
    else s)

/-- Have the transmit queue and its waiters emptied (R172)? -/
def txEmpty (s : State) : Bool := s.link.tx.isEmpty && s.link.txWait.isEmpty

/-- In the final step, once the transmit queue is empty, the power unit goes on (R172). -/
def callFinal (s : State) : State :=
  if s.power.station = .parking ∧ s.power.step = .final ∧ txEmpty s then post .parkFinal s else s

/-- PARKED from a port; with all four the final step begins (R170, R171, R172). -/
def execParked (d : DiskPort) (s : State) : Host.Outcome State Fault Refusal :=
  .next (if s.power.station = .parking ∧ s.power.step = .park ∧ !s.power.parkCancel then
      let ports := if d ∈ s.power.parkedPorts then s.power.parkedPorts else s.power.parkedPorts ++ [d]
      if ports.length = 4 then callFinal { s with power.parkedPorts := ports, power.step := .final }
      else { s with power.parkedPorts := ports }
    else s)

/-- PARK_FAILED from a port: parking ends early (R170, R171). -/
def execParkFailed (_d : DiskPort) (s : State) : Host.Outcome State Fault Refusal :=
  .next (if s.power.station = .parking ∧ s.power.step = .park ∧ !s.power.parkCancel then endParking s else s)

/-- The final step of parking, once the transmit queue is empty (R172, R173, R185). The listener takes the frames held since
the step began only here, while a button press in the meantime is in the wake latch already: it stands before a WAKE held
earlier (DESIGN CHOICE, log 42). -/
def execParkFinal (s : State) : Host.Outcome State Fault Refusal :=
  .next (if s.power.station = .parking ∧ s.power.step = .final ∧ txEmpty s then
      let held := s.link.rxHeld
      let s := holdTimers
        { s with link.intake := [], link.rxHeld := [], link.speed := .lowest, power.selfRefresh := true, power.rxtOn := false,
                 power.pllOn := false, power.listener := true, power.station := .asleep, power.step := .none }
      listenAll held (if s.power.latch.isEmpty then s else startWake s)
    else s)

/-! ### Clocks -/

/-- SXT is judged stopped (R178); in ASLEEP nothing watches it. -/
def execSxtStopDetected (s : State) : Host.Outcome State Fault Refusal :=
  .next (if s.power.sxtFault ∨ s.power.station = .asleep then s
    else
      let s := setFlag .clockFault
        { s with power.tickSource := .fallback, power.sxtFault := true, power.lastRestart := s.now,
                 power.sxtOn := false, power.sxtWatched := false, power.sxtReturn := false }
      if s.power.station = .dozing then cancelDoze s else if parkingOpen s then endParking s else s)

/-- Is a restart of SXT due: 60 station seconds after the last attempt while the fault lasts (R178)? -/
def restartDue (s : State) : Bool :=
  s.power.sxtFault && !s.power.sxtWatched && !s.power.sxtReturn && decide (60 ≤ (s.now - s.power.lastRestart).toNat)

/-- The power unit restarts SXT and watches it (R178). -/
def execSxtRestartAttempt (s : State) : Host.Outcome State Fault Refusal :=
  .next (if restartDue s then
      { s with power.sxtOn := true, power.sxtWatched := true, power.lastRestart := s.now }
    else s)

/-- The watched restart ends (R178): on success the source returns to SXT at the next COARSE boundary. -/
def execSxtRestartResult (ran : Bool) (s : State) : Host.Outcome State Fault Refusal :=
  .next (if s.power.sxtWatched then
      { s with power.sxtWatched := false, power.sxtReturn := ran, power.sxtOn := ran }
    else s)

/-- One tick of a timer's base; an expiry goes to its owner (R180, R183). -/
def tickTimer (t : TimerNo) (s : State) : State :=
  let stage := (s.timers[t]).core.stage
  let r := (s.timers[t]).tick (timerMode t)
  let s := { s with timers := put s.timers t r.1 }
  if r.2 then post (expiryCommand t stage) s else s

/-- A tick of a base for every timer on it, by timer number (R180; log 18). -/
def tickBase (b : TickBase) (s : State) : State :=
  (List.finRange 25).foldl (fun s t => if timerBase t = b then tickTimer t s else s) s

/-- The COARSE boundary: station seconds, COARSE timers, watches, and the SXT restart (R163, R178, R180). -/
def coarseTick (s : State) : State :=
  let s := { s with power.seconds := s.power.seconds + 1 }
  let s :=
    if s.power.sxtReturn then
      { s with power.tickSource := .sxt, power.sxtFault := false, power.sxtReturn := false }
    else s
  let s := postAll (watchEvents s) (tickBase .coarse s)
  if restartDue s then post .sxtRestartAttempt s else s

/-- One period of the tick source: CYCLE, every 32nd FINE, every 32,768th COARSE (R163, R180; log 17). -/
def execTimerTick (s : State) : Host.Outcome State Fault Refusal :=
  .next (
    let cycles := (s.power.cycles + 1) % 32768
    let s := tickBase .cycle { s with power.cycles := cycles }
    let s := if cycles % 32 = 0 then tickBase .fine { s with link.ticks := s.link.ticks + 1 } else s
    if cycles = 0 then coarseTick s else s)

/-- START (R181). -/
def execTimerStart (t : TimerNo) (count second : Int) (s : State) : Host.Outcome State Fault Refusal :=
  .next (startTimer t count s second)

/-- STOP (R182). -/
def execTimerStop (t : TimerNo) (s : State) : Host.Outcome State Fault Refusal := .next (stopTimer t s)

/-- EXTEND (R182). -/
def execTimerExtend (t : TimerNo) (n : Int) (s : State) : Host.Outcome State Fault Refusal :=
  .next (extendTimer t n s)

end Sys2Proof.Machine
end

