-- ==== Sys2Proof/Machine/Index.lean ====
section
/-! DEFINITION. The chunk index: lookup and insertion (R17, R22), claims, drops and marks (R20 to R27), writing and
settling a chunk (R28 to R31), and the requests of the verify unit (R32, R33). -/

namespace Sys2Proof.Machine

/-! ### The table -/

/-- The entry of a chunk with its position, if there is one (R17). -/
def findEntry (id : ChunkId) (s : State) : Option (Nat × Entry) := s.index.entries.find? (fun e => e.2.id = id)

/-- The first number from `n` on that a rising list leaves out. -/
def firstGap : Nat → List Nat → Nat
  | n, [] => n
  | n, x :: xs => if x = n then firstGap (n + 1) xs else n

/-- The positions in use from `lo` up to and not including `hi`, rising. -/
def usedBetween (lo hi : Nat) (s : State) : List Nat :=
  (s.index.entries.map (·.1)).filter (fun p => lo ≤ p && p < hi)

/-- Where a new entry of this print goes: the lowest empty slot of its bucket, else of the overflow table (R22). -/
def emptySlot (print : Print) (s : State) : Option Nat :=
  let buckets := s.index.capacity / 8
  let b := 8 * (print.toNat % buckets)
  let slot := firstGap b (usedBetween b (b + 8) s)
  if 0 < buckets ∧ slot < b + 8 then some slot
  else
    let spare := firstGap s.index.capacity (usedBetween s.index.capacity (s.index.capacity + 65536) s)
    if spare < s.index.capacity + 65536 then some spare else none

/-- Insert an entry at a position and report the change (R19, R22). -/
def insertEntry (pos : Nat) (e : Entry) (s : State) : State :=
  noteChange (.index pos)
    { s with index.entries := insertBy (fun a b => a.1 < b.1) (pos, e) s.index.entries }

/-- Change the entry at a position, its working parts included. -/
def changeEntry (pos : Nat) (f : Entry → Entry) (s : State) : State :=
  { s with index.entries := s.index.entries.map (fun e => if e.1 = pos then (e.1, f e.2) else e) }

/-- Change what the image holds of an entry, and report it (R19). -/
def setEntry (pos : Nat) (f : Entry → Entry) (s : State) : State := noteChange (.index pos) (changeEntry pos f s)

/-- The entry at a position. -/
def entryAt (pos : Nat) (s : State) : Option Entry := (s.index.entries.find? (fun e => e.1 = pos)).map (·.2)

/-- The number of LOST entries (R40). -/
def lostCount (s : State) : Nat := (s.index.entries.filter (fun e => e.2.state = .lost)).length

/-! ### Removal, holds and re-mirroring -/

/-- Free every block of a list of copies (R38). -/
def freeCopies (n : Nat) : List Place → State → State
  | [], s => s
  | p :: ps, s => freeCopies n ps (freeBlocks p n s)

/-- The copies an entry names. -/
def copiesOf (e : Entry) : List Place := e.copyA.toList ++ e.copyB.toList

/-- Does an entry meet every condition of removal (R25)? -/
def removable (e : Entry) : Bool :=
  e.count = 0 && !e.mark && e.state ≠ .writing && e.holds = 0 && e.recopy.isNone

/-- Remove the entry at a position when R25 allows: its blocks are freed, and the verify unit is told. -/
def tryRemove (pos : Nat) (s : State) : State :=
  match entryAt pos s with
  | none => s
  | some e =>
    if removable e then
      let s := { s with index.entries := s.index.entries.filter (fun x => x.1 ≠ pos) }
      post (.removalNotice e.id)
        (noteChange (.index pos) (freeCopies (copyBlocks e.id.length) (copiesOf e ++ e.released) s))
    else s

/-- Copies the entry no longer names are freed, or wait on the released list while reads hold it (R32). -/
def releaseCopies (pos : Nat) (ps : List Place) (s : State) : State :=
  match entryAt pos s with
  | none => s
  | some e =>
    if 0 < e.holds then changeEntry pos (fun e => { e with released := e.released ++ ps }) s
    else freeCopies (copyBlocks e.id.length) ps s

/-- Call for the next re-mirror job when one can begin (R125, R129). -/
def callMirror (s : State) : State :=
  if s.power.station = .awake ∧ !s.verify.hushed ∧ s.verify.job.isNone ∧ !s.verify.mirrors.isEmpty then
    post .remirrorJobStart s
  else s

/-- A chunk joins the re-mirror list: not twice, and 64 at most (R125). -/
def queueMirror (id : ChunkId) (s : State) : State :=
  if id ∈ s.verify.mirrors ∨ 64 ≤ s.verify.mirrors.length then s
  else callMirror { s with verify.mirrors := s.verify.mirrors ++ [id] }

/-- A marked STORED entry with one copy is queued for re-mirroring where two members are healthy (R27, R30). -/
def testMirror (pos : Nat) (s : State) : State :=
  match entryAt pos s with
  | none => s
  | some e =>
    if e.mark ∧ e.state = .stored ∧ e.copyB.isNone ∧ 2 ≤ healthyMembers s then queueMirror e.id s else s

/-! ### Writing a chunk -/

/-- The count after one more reference: pinned at 65,535 (R26). -/
def countUp (n : Nat) : Nat := min 65535 (n + 1)

/-- The count after one drop: 0 and 65,535 stay (R24, R26). -/
def countDown (n : Nat) : Nat := if n = 65535 then 65535 else n - 1

/-- The member of a new copy that is in write or written (R29). -/
def newMember (c : NewCopy) : List Nat :=
  match c with
  | .inWrite p _ => [p.member]
  | .written p => [p.member]
  | .unwanted => []
  | .abandoned => []

/-- Is a new copy still in write (R30)? -/
def stillWriting (c : NewCopy) : Bool :=
  match c with
  | .inWrite _ _ => true
  | _ => false

/-- The place of a written copy. -/
def writtenPlace (c : NewCopy) : Option Place :=
  match c with
  | .written p => some p
  | _ => none

/-- The WRITE of one copy of a chunk, its last block filled out with zero bytes (R28); R33's WRITE is taken to be filled out
in the same way (DEDUCED, log 45). -/
def copyWrite (r : Requester) (cls : ServiceClass) (id : ChunkId) (b : BufferNo) (p : Place) : DiskCmd :=
  { requester := r, cls := cls, op := .write p.first (copyBlocks id.length) (.buffer b id.length (copyZeros id.length)) }

/-- Place one copy and queue its WRITE; abandoned where there is no place (R28, R29, R37). -/
def placeCopy (r : Requester) (cls : ServiceClass) (id : ChunkId) (b : BufferNo) (excluded : List Nat) (again : Bool)
    (s : State) : NewCopy × State :=
  match placeOne (copyBlocks id.length) excluded s with
  | none => (.abandoned, s)
  | some (_, p, s) => (.inWrite p again, offerAt p.member (copyWrite r cls id b p) s)

/-- The settle report to its three receivers (R30), in this order (DESIGN CHOICE, log 46). -/
def sendSettle (id : ChunkId) (r : Settled) (s : State) : State :=
  postAll [.sessionSettleReport id r, .fetchSettleReport id r, .verifySettleReport id r] s

/-- Set UNMIRRORED_SEEN where two or more members are PRESENT (R30). -/
def seeUnmirrored (s : State) : State := if 2 ≤ presentMembers s then setFlag .unmirroredSeen s else s

/-- The settle of an entry once no copy is in write (R30). -/
def settleEntry (pos : Nat) (s : State) : State :=
  match entryAt pos s with
  | none => s
  | some e =>
    match e.write with
    | none => s
    | some w =>
      if stillWriting w.newA || stillWriting w.newB then s
      else
        let copies := (writtenPlace w.newA).toList ++ (writtenPlace w.newB).toList
        let result : Settled :=
          if !copies.isEmpty then .stored else if w.refused ∧ !w.issued then .lostNoSpace else .lostWriteFailed
        let s := setEntry pos (fun e =>
          { e with state := if copies.isEmpty then .lost else .stored, copyA := copies[0]?, copyB := copies[1]?,
                   write := none }) s
        let s := if copies.isEmpty then setFlag .lostSeen s else s
        let s := if w.newB ≠ .unwanted ∧ copies.length = 1 then seeUnmirrored s else s
        let s := releaseBuffer w.buffer (releaseCopies pos (w.oldA.toList ++ w.oldB.toList) s)
        testMirror pos (tryRemove pos (sendSettle e.id result s))

/-- Place the copies of a new write record and queue their WRITEs (R28). -/
def placeChunk (pos : Nat) (s : State) : State :=
  match entryAt pos s with
  | none => s
  | some e =>
    match e.write with
    | none => s
    | some w =>
      let two := w.wanted = .two
      let (a, s) := placeCopy (.chunkWrite e.id .a) .store e.id w.buffer [] false s
      let (b, s) :=
        if two then
          match a with
          | .inWrite p _ => placeCopy (.chunkWrite e.id .b) .store e.id w.buffer [p.member] false s
          | _ => (NewCopy.abandoned, s)
        else (NewCopy.unwanted, s)
      settleEntry pos (changeEntry pos (fun e =>
        { e with write := some { w with newA := a, newB := b, issued := stillWriting a || stillWriting b,
                                        refused := a = .abandoned || b = .abandoned } }) s)

/-- A WRITE of a claim's copy ends (R29): written, placed once more, or abandoned; then the settle is tested. -/
def chunkWriteEnded (id : ChunkId) (side : CopySide) (good : Bool) (s : State) : State :=
  match findEntry id s with
  | none => s
  | some (pos, e) =>
    match e.write with
    | none => s
    | some w =>
      let mine := if side = .a then w.newA else w.newB
      let other := if side = .a then w.newB else w.newA
      match mine with
      | .inWrite p again =>
        let (c, s) :=
          if good then (NewCopy.written p, s)
          else
            let s := freeBlocks p (copyBlocks id.length) s
            if again then (NewCopy.abandoned, s)
            else placeCopy (.chunkWrite id side) .store id w.buffer (p.member :: newMember other) true s
        let refused := w.refused || (!good && !again && c = .abandoned)
        settleEntry pos (changeEntry pos (fun e =>
          { e with write := some (if side = .a then { w with newA := c, refused := refused }
                                  else { w with newB := c, refused := refused }) }) s)
      | _ => s

/-! ### Claims, drops and marks -/

/-- Tell a claimant's owner the outcome (R21). -/
def tellClaimant (c : Claim) (r : ClaimResult) (s : State) : State :=
  match c.claimant with
  | .session i serial pos => post (.claimOutcome i serial pos c.id r) s
  | .fetch f serial pos => post (.fetchClaimOutcome f serial pos c.id r) s

/-- Give back the buffer a claim came with (R12, R21). -/
def returnClaimed (c : Claim) (s : State) : State :=
  match c.buffer with
  | some b => releaseBuffer b s
  | none => s

/-- The copies to place: TWO when wanted or when the entry is marked (R28). -/
def copiesToPlace (wanted : CopiesWanted) (mark : Bool) : CopiesWanted := if mark then .two else wanted

/-- A new write record on a buffer (R18, R22, R31). -/
def newWrite (b : BufferNo) (wanted : CopiesWanted) (oldA oldB : Option Place) (prior : Option EntryState) :
    WriteRec :=
  { buffer := b, wanted := wanted, newA := .unwanted, newB := .unwanted, oldA := oldA, oldB := oldB, prior := prior,
    issued := false, refused := false }

/-- A MISS inserts the entry and its writing begins (R22, R28). -/
def missInsert (c : Claim) (b : BufferNo) (pos : Nat) (s : State) : State :=
  let e : Entry :=
    { id := c.id, state := .writing, mark := false, count := 1, copyA := none, copyB := none,
      write := some (newWrite b c.wanted none none none), holds := 0, recopy := none, released := [] }
  placeChunk pos (tellClaimant c .miss (passBuffer b .index (insertEntry pos e s)))

/-- A REVIVE takes the claimer's bytes (R31). -/
def revive (c : Claim) (b : BufferNo) (pos : Nat) (s : State) : State :=
  let s := setEntry pos (fun e =>
    { e with state := .writing, count := countUp e.count, copyA := none, copyB := none,
             write := some (newWrite b (copiesToPlace c.wanted e.mark) e.copyA e.copyB (some e.state)),
             recopy := e.recopy.map (fun r => { r with superseded := true }) }) s
  placeChunk pos (tellClaimant c .revive (passBuffer b .index s))

/-- One more reference on a settled or WRITING entry (R21); a pinned one stays as it is, and nothing is reported (R19, R26). -/
def claimHit (c : Claim) (r : ClaimResult) (pos : Nat) (e : Entry) (s : State) : State :=
  let s := if countUp e.count = e.count then s else setEntry pos (fun e => { e with count := countUp e.count }) s
  tellClaimant c r (returnClaimed c s)

/-- The index takes a CLAIM (R21). -/
def takeClaim (c : Claim) (s : State) : State :=
  match findEntry c.id s with
  | some (pos, e) =>
    match e.state with
    | .stored => claimHit c .hit pos e s
    | .writing => claimHit c .hitUnsettled pos e s
    | .doubtful =>
      match c.buffer with
      | some b => revive c b pos s
      | none => tellClaimant c .needsBytes s
    | .lost =>
      match c.buffer with
      | some b => revive c b pos s
      | none => tellClaimant c .needsBytes s
  | none =>
    match c.buffer with
    | none => tellClaimant c .needsBytes s
    | some b =>
      match emptySlot c.id.print s with
      | some pos => missInsert c b pos s
      | none => tellClaimant c .indexFull (releaseBuffer b s)

/-- CLAIM (R21, R135): kept during a HOLD. A length outside R21's range, which no claimant presents, is claimed as any
other (log 33). -/
def execClaim (c : Claim) (s : State) : Host.Outcome State Fault Refusal :=
  .next (if s.index.holding then { s with index.kept := s.index.kept ++ [c] }
    else asWork (.cmd (.claim c)) (takeClaim c) s)

/-- DROP on the index (R24, R25). -/
def takeDrop (id : ChunkId) (s : State) : State :=
  match findEntry id s with
  | none => s
  | some (pos, e) =>
    if countDown e.count = e.count then tryRemove pos s
    else tryRemove pos (setEntry pos (fun e => { e with count := countDown e.count }) s)

/-- DROP (R24). -/
def execDrop (id : ChunkId) (s : State) : Host.Outcome State Fault Refusal :=
  .next (asWork (.cmd (.drop id)) (takeDrop id) s)

/-- Record what the index answered. -/
def indexAnswers (a : IndexAnswer) (s : State) : State := { s with index.answer := a }

/-- The index's answer about an entry (R20, R32). -/
def entryAnswer (pos : Nat) (e : Entry) : IndexAnswer := .found pos e.state e.mark e.copyA e.copyB

/-- MARK on the index (R27); of an entry marked already, whose count stays, nothing is reported (R19, R24). -/
def takeMark (id : ChunkId) (s : State) : State :=
  match findEntry id s with
  | none => indexAnswers .absent s
  | some (pos, e) =>
    let s :=
      if e.mark ∧ countDown e.count = e.count then s
      else setEntry pos (fun e => { e with mark := true, count := countDown e.count }) s
    indexAnswers .marked (testMirror pos s)

/-- The catalog takes a MARK's answer; with a FENCE waiting, the last one lets it answer (R135; log 28). -/
def markAnswered (s : State) : State :=
  let s := { s with catalog.marksOut := s.catalog.marksOut - 1 }
  if s.catalog.fenceDue ∧ s.catalog.marksOut = 0 then
    post (.fenceBack .catalog) { s with catalog.fenceDue := false, catalog.fenced := true }
  else s

/-- MARK (R27). -/
def execMark (id : ChunkId) (s : State) : Host.Outcome State Fault Refusal :=
  .next (asWork (.cmd (.mark id)) (fun s => markAnswered (takeMark id s)) s)

/-! ### Reads -/

/-- What the index answers to LOOKUP (R20). -/
def lookupAnswer (id : ChunkId) (s : State) : IndexAnswer :=
  match findEntry id s with
  | none => .absent
  | some (pos, e) => entryAnswer pos e

/-- LOOKUP (R20), in the index's order (R19). -/
def execLookup (id : ChunkId) (s : State) : Host.Outcome State Fault Refusal :=
  .next (asWork (.cmd (.lookup id)) (fun s => indexAnswers (lookupAnswer id s) s) s)

/-- READ_BEGIN (R32): a hold on a STORED or DOUBTFUL entry, 128 at most. -/
def readBegin (id : ChunkId) (s : State) : IndexAnswer × State :=
  match findEntry id s with
  | none => (.absent, s)
  | some (pos, e) =>
    if e.state = .stored ∨ e.state = .doubtful then
      if e.holds < 128 then (entryAnswer pos e, changeEntry pos (fun e => { e with holds := e.holds + 1 }) s)
      else (.busy, s)
    else (entryAnswer pos e, s)

/-- READ_BEGIN as a command (R32), in the index's order (R19). -/
def execReadBegin (id : ChunkId) (s : State) : Host.Outcome State Fault Refusal :=
  .next (asWork (.cmd (.readBegin id)) (fun s => let r := readBegin id s; indexAnswers r.1 r.2) s)

/-- READ_END on the index (R32): at 0 the released list is freed, then R25. One that finds no entry changes nothing, and one
that finds no hold tests the removal alone: R32's table has no row for either (DESIGN CHOICE, log 40). -/
def takeReadEnd (id : ChunkId) (s : State) : State :=
  match findEntry id s with
  | none => s
  | some (pos, e) =>
    if e.holds = 0 then tryRemove pos s
    else
      let s := changeEntry pos (fun e => { e with holds := e.holds - 1 }) s
      if e.holds = 1 then
        tryRemove pos
          (freeCopies (copyBlocks id.length) e.released (changeEntry pos (fun e => { e with released := [] }) s))
      else s

/-- READ_END (R32). -/
def execReadEnd (id : ChunkId) (s : State) : Host.Outcome State Fault Refusal :=
  .next (asWork (.cmd (.readEnd id)) (takeReadEnd id) s)

/-- SUSPECT (R32). Without an entry it is answered ABSENT and changes nothing: R32's table has no row for it (DESIGN CHOICE,
log 40). -/
def suspect (id : ChunkId) (s : State) : IndexAnswer × State :=
  match findEntry id s with
  | none => (.absent, s)
  | some (pos, e) =>
    if e.state = .stored then
      (.found pos .doubtful e.mark e.copyA e.copyB, setEntry pos (fun e => { e with state := .doubtful }) s)
    else (entryAnswer pos e, s)

/-- SUSPECT as a command (R32); the copy named changes nothing further. -/
def execSuspect (id : ChunkId) (side : CopySide) (s : State) : Host.Outcome State Fault Refusal :=
  .next (asWork (.cmd (.suspect id side)) (fun s => let r := suspect id s; indexAnswers r.1 r.2) s)

/-- CONDEMN (R32). Without an entry it is answered ABSENT and changes nothing: R32's table has no row for it (DESIGN CHOICE,
log 40). -/
def condemn (id : ChunkId) (s : State) : IndexAnswer × State :=
  match findEntry id s with
  | none => (.absent, s)
  | some (pos, e) =>
    if e.state = .doubtful then
      (.found pos .lost e.mark e.copyA e.copyB,
        setFlag .lostSeen (setEntry pos (fun e => { e with state := .lost }) s))
    else (entryAnswer pos e, s)

/-- CONDEMN as a command (R32). -/
def execCondemn (id : ChunkId) (s : State) : Host.Outcome State Fault Refusal :=
  .next (asWork (.cmd (.condemn id)) (fun s => let r := condemn id s; indexAnswers r.1 r.2) s)

/-! ### RECOPY -/

/-- Answer a RECOPY; its buffer goes with the answer (R33). -/
def answerRecopy (r : Recopy) (res : RecopyResult) (s : State) : State :=
  post (.recopyAnswer r.sender r.id r.buffer res) s

/-- The copies in place after a recopy that wrote what it was asked for: copy A, copy B and those replaced (R33). ADD B may meet
an entry that has a copy B by then, from a REVIVE settled with two copies while the job's READ was in flight: R33 does not
speak of it; the new copy becomes copy B there too, and the one that stood is released. Nor does it speak of ADD B or REPLACE B
on an entry with no copy A, which a REVIVE that failed has left LOST: the new copy becomes copy B alone (DESIGN CHOICE,
log 48). -/
def recopied (p : RecopyPurpose) (a b : Option Place) (e : Entry) : Option Place × Option Place × List Place :=
  match p with
  | .replaceA => (a, e.copyB, e.copyA.toList)
  | .replaceB => (e.copyA, b, e.copyB.toList)
  | .addB => (e.copyA, b, e.copyB.toList)
  | .replaceAll => (a, b, e.copyA.toList ++ e.copyB.toList)

/-- Set an entry's copies, make it STORED, and release the copies replaced (R33); where it stands so already, nothing is
reported (R19). -/
def storeRecopied (pos : Nat) (e : Entry) (a b : Option Place) (old : List Place) (s : State) : State :=
  releaseCopies pos old
    (if e.state = .stored ∧ e.copyA = a ∧ e.copyB = b then s
    else setEntry pos (fun e => { e with state := .stored, copyA := a, copyB := b }) s)

/-- What a recopy's end does to the entry, and its answer (R33). A REPLACE that has written nothing drops the bad copy also
where no kept copy stands beside it, as R121's recopy after a settled revive can meet it: the entry is then STORED without a
copy, and the answer UNMIRRORED (DESIGN CHOICE, log 40). -/
def recopyResult (pos : Nat) (e : Entry) (r : RecopyRec) (s : State) : RecopyResult × State :=
  let a := writtenPlace r.newA
  let b := writtenPlace r.newB
  let written := a.toList ++ b.toList
  let asked := (if r.newA = .unwanted then 0 else 1) + (if r.newB = .unwanted then 0 else 1)
  if r.superseded then (.superseded, freeCopies (copyBlocks e.id.length) written s)
  else if written.length = asked then
    let c := recopied r.purpose a b e
    (.done, storeRecopied pos e c.1 c.2.1 c.2.2 s)
  else if !written.isEmpty then
    (.unmirrored, seeUnmirrored (storeRecopied pos e written[0]? none (copiesOf e) s))
  else
    match r.purpose with
    | .replaceA => (.unmirrored, seeUnmirrored (storeRecopied pos e e.copyB none e.copyA.toList s))
    | .replaceB => (.unmirrored, seeUnmirrored (storeRecopied pos e e.copyA none e.copyB.toList s))
    | .addB => (.failed, s)
    | .replaceAll => (.failed, s)

/-- The end of a recopy once no copy is in write (R33). -/
def endRecopy (pos : Nat) (s : State) : State :=
  match entryAt pos s with
  | none => s
  | some e =>
    match e.recopy with
    | none => s
    | some r =>
      if stillWriting r.newA || stillWriting r.newB then s
      else
        let (res, s) := recopyResult pos e r s
        let s := changeEntry pos (fun e => { e with recopy := none }) s
        tryRemove pos
          (answerRecopy { id := e.id, purpose := r.purpose, buffer := r.buffer, sender := r.sender } res s)

/-- The members of the copies that stay after a recopy of this purpose (R29, R33). ADD B keeps copy A alone, also of an entry
that has a copy B by then (DESIGN CHOICE, log 48). -/
def keptMembers (p : RecopyPurpose) (e : Entry) : List Nat :=
  match p with
  | .replaceA => e.copyB.toList.map (·.member)
  | .replaceB => e.copyA.toList.map (·.member)
  | .addB => e.copyA.toList.map (·.member)
  | .replaceAll => []

/-- The members of the copies that remain once a recopy in write has ended (R29, R33). A superseded one leaves the entry what
the revive gives it: the copies it names, and while it is WRITING those its write record has in write or written. -/
def remainingMembers (r : RecopyRec) (e : Entry) : List Nat :=
  if r.superseded then
    (copiesOf e).map (·.member) ++
      match e.write with
      | some w => newMember w.newA ++ newMember w.newB
      | none => []
  else keptMembers r.purpose e

/-- Which new copies a purpose asks for (R33): A, B. -/
def recopyAsks (p : RecopyPurpose) (mark : Bool) : Bool × Bool :=
  match p with
  | .replaceA => (true, false)
  | .replaceB => (false, true)
  | .addB => (false, true)
  | .replaceAll => (true, mark)

/-- The index takes a RECOPY (R33). -/
def takeRecopy (r : Recopy) (s : State) : State :=
  match findEntry r.id s with
  | none => answerRecopy r .absent s
  | some (pos, e) =>
    if e.state = .writing ∨ e.recopy.isSome then answerRecopy r .superseded s
    else
      let asks := recopyAsks r.purpose e.mark
      let kept := keptMembers r.purpose e
      let s := passBuffer r.buffer .index s
      let (a, s) :=
        if asks.1 then placeCopy (.recopyWrite r.id .a) .copying r.id r.buffer kept false s
        else (NewCopy.unwanted, s)
      let (b, s) :=
        if !asks.2 then (NewCopy.unwanted, s)
        else if asks.1 ∧ a = .abandoned then (NewCopy.abandoned, s)
        else placeCopy (.recopyWrite r.id .b) .copying r.id r.buffer (kept ++ newMember a) false s
      endRecopy pos (changeEntry pos (fun e =>
        { e with recopy := some { purpose := r.purpose, buffer := r.buffer, sender := r.sender, newA := a, newB := b,
                                  superseded := false } }) s)

/-- RECOPY (R33). -/
def execRecopy (r : Recopy) (s : State) : Host.Outcome State Fault Refusal :=
  .next (asWork (.cmd (.recopy r)) (takeRecopy r) s)

/-- A WRITE of a recopy ends (R29, R33). -/
def recopyWriteEnded (id : ChunkId) (side : CopySide) (good : Bool) (s : State) : State :=
  match findEntry id s with
  | none => s
  | some (pos, e) =>
    match e.recopy with
    | none => s
    | some r =>
      let mine := if side = .a then r.newA else r.newB
      let other := if side = .a then r.newB else r.newA
      match mine with
      | .inWrite p again =>
        let (c, s) :=
          if good then (NewCopy.written p, s)
          else
            let s := freeBlocks p (copyBlocks id.length) s
            if again then (NewCopy.abandoned, s)
            else
              placeCopy (.recopyWrite id side) .copying id r.buffer
                (p.member :: (newMember other ++ remainingMembers r e)) true s
        endRecopy pos (changeEntry pos (fun e =>
          { e with recopy := some (if side = .a then { r with newA := c } else { r with newB := c }) }) s)
      | _ => s

end Sys2Proof.Machine
end

