-- ==== Sys2Proof/Machine/Objects.lean ====
section
/-! DEFINITION. Sessions and their objects as other units meet them: finding and changing sessions and clients, answers
and SESSION_IDLE (R61), the recipe buffer (R73), the photo key (R71, R92), a failing object (R68), and the draft
(R70, R74). -/

namespace Sys2Proof.Machine

/-- Change a session and report the change. -/
def setSession (i : SessionNo) (f : Session → Session) (s : State) : State :=
  noteChange (.session i.val) { s with sessions.table := put s.sessions.table i ((s.sessions.table[i]).map f) }

/-- The session of a client tag (R61). -/
def sessionOf (tag : Tag) (s : State) : Option SessionNo :=
  (List.finRange 4).find? (fun i => (s.sessions.table[i]).any (fun x => x.tag = tag))

/-- The client table entry of a tag (R63). -/
def clientOf (tag : Tag) (s : State) : Option (Fin 16) :=
  (List.finRange 16).find? (fun i => (s.sessions.clients[i]).any (fun c => c.tag = tag))

/-- Change a client and report the change. -/
def setClient (i : Fin 16) (f : Client → Client) (s : State) : State :=
  noteChange (.client i.val) { s with sessions.clients := put s.sessions.clients i ((s.sessions.clients[i]).map f) }

/-- Change the client of a tag, if it is registered. -/
def setClientOf (tag : Tag) (f : Client → Client) (s : State) : State :=
  match clientOf tag s with
  | some i => setClient i f s
  | none => s

/-- The place of a session's object under intake among its objects: behind its draft (R73, R74). -/
def objectPlace (i : SessionNo) (s : State) : Nat := match s.sessions.table[i] with | some x => x.draft.length | none => 0

/-- Element slots of a session's object change: each one's page is changed (R73, R131). -/
def noteElements (i : SessionNo) (object : Nat) (ps : List Nat) (s : State) : State :=
  noteChanges (ps.map (.element i.val object)) s

/-- The parts of the image that hold a draft: its objects and their element slots (R73, R74, R131). -/
def draftParts (i : SessionNo) (draft : List DraftObject) : List ImagePart :=
  draft.zipIdx.flatMap (fun d => .draft i.val d.2 :: (List.range d.1.elems.length).map (.element i.val d.2))

/-- The draft objects of a session that have an extent, placed or being written, which cold start frees (R75, R143). -/
def extentParts (i : SessionNo) (es : List ExtentState) : List ImagePart :=
  (es.zipIdx.filter (fun e => e.1 ≠ .absent)).map (fun e => .draft i.val e.2)

/-- Is the session of kind BACKUP? -/
def isBackup (x : Session) : Bool :=
  match x.kind with
  | .backup => true
  | .album _ _ => false

/-! ### Answers -/

/-- Start SESSION_IDLE[s] at the configured session idle (R61). -/
def startSessionIdle (i : SessionNo) (s : State) : State := startTimer (sessionIdleTimer i) s.conf.sessionIdle s

/-- SESSION_IDLE starts again after an answer, unless the session is CLOSING or gone (R61; log 20). -/
def idleAgain (i : SessionNo) (s : State) : State :=
  match s.sessions.table[i] with
  | some x => if x.state = .closing then s else startSessionIdle i s
  | none => s

/-- Answer a request of a session; once the answer has joined the transmit queue, SESSION_IDLE starts again (R61, R191). -/
def answerSession (i : SessionNo) (h : ReqHdr) (c : Code) (body : List Byte) (s : State) : State :=
  transmitThen [replyFrameOf s h c body false] (.idle i s.sessions.openings[i] ((s.sessions.table[i]).bind (·.ending)))
    (idleAgain i) s

/-! ### Slots and keys -/

/-- Element slots in use by a session: its object's and its draft's, the draft's until turnover (R73, R76). -/
def sessionSlots (x : Session) : Nat :=
  (match x.current with | some o => o.elems.length | none => 0) + (x.draft.map (fun d => d.elems.length)).sum

/-- Element slots in use (R73). -/
def slotsUsed (s : State) : Nat :=
  (s.sessions.table.toList.map (fun x => match x with | some x => sessionSlots x | none => 0)).sum +
    (s.catalog.fetches.toList.map (fun f => match f with | some f => f.elems.length | none => 0)).sum

/-- Is an element slot free (R73)? -/
def slotFree (s : State) : Bool := slotsUsed s < 4194304

/-- The keys of a session's draft objects, until turnover releases each (R92, R93). -/
def draftKeys (x : Session) : List (Nat × PhotoId) :=
  match x.kind with
  | .backup => []
  | .album n _ => (x.draft.filter (fun d => !d.turned)).map (fun d => (n, d.photo))

/-- Is a key taken, by a photo entry or by an object in a draft (R71, R92)? -/
def keyTaken (album : Nat) (id : PhotoId) (s : State) : Bool :=
  (findPhoto album id s).isSome ||
    s.sessions.table.toList.any (fun x => match x with | some x => (album, id) ∈ draftKeys x | none => false)

/-! ### A failing object -/

/-- The elements that hold a reference (R68, R132). -/
def heldElements (es : List ObjElem) : List ChunkId :=
  (es.filter (fun e => e.standing = .settled || e.standing = .waiting)).map (·.id)

/-- The elements of a draft that hold a reference: those of the objects not turned over (R78, R132, R143). -/
def draftHeld (draft : List DraftObject) : List ChunkId :=
  (draft.filter (fun d => !d.turned)).flatMap (fun d => heldElements d.elems)

/-- Answer the request being served for a failing object with the code (R66, R68). -/
def answerServed (i : SessionNo) (x : Session) (c : Code) (s : State) : State :=
  let s :=
    match x.entering with
    | some h => post (.ownerReady .sessions) (answerSession i h c [] s)
    | none => s
  match x.ending with
  | some h => post (.ownerReady .sessions) (answerSession i h c [] s)
  | none => s

/-- An object fails (R68): the context is discarded, references dropped, slots and reservation released, the failure
noted and the request being served answered. CTX_DISCARD goes out for every failure before CTX_END: messages arrive in the
order sent (R135), so it meets the context after this object's CTX_OPEN, CUTTING or STALLED. A CTX_END already sent leaves
the context READY, and nothing is sent. -/
def failObject (i : SessionNo) (c : Code) (s : State) : State :=
  match s.sessions.table[i] with
  | none => s
  | some x =>
    match x.current with
    | none => s
    | some o =>
      let s := if o.ended then s else post (.ctxDiscard i) s
      let s := sendDrops .sessions (heldElements o.elems) s
      let s :=
        if isBackup x then setClientOf x.tag (fun k => { k with reserved := k.reserved - o.declared }) s else s
      let s := noteElements i x.draft.length (List.range o.elems.length) (setSession i (fun x =>
        { x with current := none, failed := some (o.id, c), state := .idle, entering := none, ending := none,
                 reservations := if isBackup x then x.reservations else x.reservations - 1 }) s)
      answerServed i x c s

/-! ### Elements and the draft -/

/-- Note the photo id of an ALBUM object at its first element or at "object cut"; a taken key fails it (R71). -/
def testPhotoKey (i : SessionNo) (id : PhotoId) (s : State) : State :=
  match s.sessions.table[i] with
  | some { kind := .album n _, current := some o, .. } =>
    if o.photo.isSome then s
    else if keyTaken n id s then failObject i .nameTaken s
    else setSession i (fun x => { x with current := x.current.map (fun o => { o with photo := some id }) }) s
  | _ => s

/-- Is this serial that of the current object of session `i` (R69)? -/
def currentIs (i : SessionNo) (serial : Word) (s : State) : Bool :=
  (s.sessions.table[i]).any (fun x => x.current.any (fun o => o.serial = serial))

/-- A context asks for an element slot and hands the element on (R9, R73): the element's position when granted. A
refusal fails the object; a serial that is no current object's is refused (log 14). -/
def takeElement (i : SessionNo) (serial : Word) (id : ChunkId) (s : State) : Option Nat × State :=
  if !currentIs i serial s then (none, s)
  else if !slotFree s then (none, failObject i .recipeFull s)
  else
    match s.sessions.table[i] with
    | some { current := some o, .. } =>
      let s := noteElements i (objectPlace i s) [o.elems.length] (setSession i (fun x =>
        { x with current := x.current.map (fun o =>
            { o with elems := o.elems ++ [{ id := id, standing := .unrecorded }] }) }) s)
      (some o.elems.length, testPhotoKey i (id.print.setWidth 64) s)
    | _ => (none, s)

/-- The draft object an object under intake becomes (R74). -/
def draftOf (o : CurrentObject) : DraftObject :=
  { id := o.id, length := o.received, elems := o.elems, photo := o.photo.getD 0, caption := o.caption, turned := false }

/-- In FINISHING, once every element is settled, the object joins the draft and END_OBJECT is answered OK (R70). -/
def tryFinish (i : SessionNo) (s : State) : State :=
  match s.sessions.table[i] with
  | some { state := .finishing, current := some o, ending := ending, .. } =>
    if o.elems.all (fun e => e.standing = .settled) then
      let s := noteChange (.draft i.val (objectPlace i s)) (setSession i (fun x =>
        { x with state := .idle, current := none, ending := none, draft := x.draft ++ [draftOf o] }) s)
      match ending with
      | some h => answerSession i h .ok [] s
      | none => s
    else s
  | _ => s

end Sys2Proof.Machine
end

