-- ==== Sys2Proof/Machine/Engine.lean ====
section
/-! DEFINITION. The chunk engine: start-time values (R1 to R3), cutting contexts (R4, R5, R11, R14), the rolling sum and
the boundary test (R6, R7), cuts (R9, R10) and stalls (R13). -/

namespace Sys2Proof.Machine

/-! ### Start-time values -/

/-- One step of the byte table's generator (R1). -/
def tableStep (x : Word) : Word :=
  let x := x ^^^ (x <<< 13)
  let x := x ^^^ (x >>> 17)
  x ^^^ (x <<< 5)

/-- `n` entries of the byte table, from a generator state (R1). -/
def tableFrom : Nat → Word → List Word
  | 0, _ => []
  | n + 1, x => tableStep x :: tableFrom n (tableStep x)

/-- The byte table T[0..255] of a seed (R1). -/
def byteTable (seed : Word) : List Word := tableFrom 256 seed

/-- C multiplied by itself `n` times, modulo 2^32 (R2). -/
def powerOf (c : Word) : Nat → Word
  | 0 => 1
  | n + 1 => powerOf c n * c

/-- The window factor F = C^48 (R2). -/
def windowFactor (c : Word) : Word := powerOf c 48

/-- Set the engine's start-time values (R1, R2, R3). -/
def setupEngine (c : Conf) (e : Engine) : Engine :=
  { e with table := byteTable c.seed, mult := c.multiplier, factor := windowFactor c.multiplier,
           chunkClass := c.chunkClass }

/-! ### The rolling sum and the boundary test -/

/-- T[b]. -/
def weight (e : Engine) (b : Byte) : Word := e.table.getD b.toNat 0

/-- The leading zero bits of H, 32 for 0 (R7). -/
def leadingZeros (h : Word) : Nat := ((List.range 32).find? (fun i => h.getLsbD (31 - i))).getD 32

/-- Does a cut fall after a byte, for class k = class + 12, by the length and the sum (R7)? -/
def cutsAt (cls len : Nat) (h : Word) : Bool :=
  let k := cls + 12
  let z := leadingZeros h
  if len < 2 ^ (k - 2) then false
  else if len < 2 ^ k then k + 1 ≤ z
  else if len < 2 ^ (k + 1) then k - 1 ≤ z
  else if len < 2 ^ (k + 2) then k - 3 ≤ z
  else true

/-- The rolling sum after a byte, by the delay line before it (R6 step 5). -/
def rollSum (e : Engine) (c : Context) (b : Byte) : Word :=
  match c.delay with
  | o :: _ =>
    if 48 ≤ c.delay.length then c.sum * e.mult + weight e b - weight e o * e.factor
    else c.sum * e.mult + weight e b
  | [] => c.sum * e.mult + weight e b

/-- The delay line after a byte: the oldest of 48 leaves, and the byte joins as the newest (R6). -/
def rollDelay (delay : List Byte) (b : Byte) : List Byte :=
  (if 48 ≤ delay.length then delay.drop 1 else delay) ++ [b]

/-- A context after one byte has entered (R6, steps 3 to 6). -/
def Context.absorb (e : Engine) (c : Context) (b : Byte) : Context :=
  { c with len := c.len + 1, hash := c.hash.absorb b, sum := rollSum e c b, delay := rollDelay c.delay b }

/-- A chunk's start (R5): the state and the serial stay. -/
def Context.fresh (c : Context) : Context :=
  { c with sum := 0, len := 0, delay := [], hash := RunningPrint.start, buffer := none }

/-- Change a context. -/
def setCtx (i : SessionNo) (f : Context → Context) (s : State) : State :=
  { s with engine.ctx := put s.engine.ctx i (f s.engine.ctx[i]) }

/-- One byte enters the context's buffer, print and sum (R6). -/
def enterByte (i : SessionNo) (buf : BufferNo) (b : Byte) (s : State) : State :=
  setCtx i (fun c => c.absorb s.engine b) (fillBuffer buf ((s.engine.buffers[buf]).bytes ++ [b]) s)

/-! ### Cuts -/

/-- The copies an object's claims want: TWO in an ALBUM session, ONE in a BACKUP session (R9). -/
def copiesFor (i : SessionNo) (s : State) : CopiesWanted :=
  match s.sessions.table[i] with
  | some x => if isBackup x then .one else .two
  | none => .one

/-- A cut falls (R9, R10): element, claim, buffer, reset; with the slot refused the buffer goes back. -/
def cutChunk (i : SessionNo) (buf : BufferNo) (s : State) : State :=
  let c := s.engine.ctx[i]
  let id : ChunkId := { print := c.hash.print, length := c.len }
  let wanted := copiesFor i s
  let r := takeElement i c.serial id s
  let s := setCtx i Context.fresh r.2
  match r.1 with
  | some pos =>
    post (.claim { id := id, wanted := wanted, claimant := .session i c.serial pos, buffer := some buf })
      (passBuffer buf .index s)
  | none => releaseBuffer buf s

/-- The bytes of a segment enter one by one (R6, R7, R13): each needs a buffer, or the context stalls before it. After
the last one "segment entered" is reported; a segment whose object has failed meanwhile is left (log 14). -/
def enterBytes (i : SessionNo) : List Byte → State → State
  | [], s => post (.segmentEntered i (s.engine.ctx[i]).serial) s
  | b :: bs, s =>
    let got : Option BufferNo × State :=
      match (s.engine.ctx[i]).buffer with
      | some buf => (some buf, s)
      | none =>
        let r := requestBuffer (.context i) s
        (r.1, setCtx i (fun c => { c with buffer := r.1 }) r.2)
    match got.1 with
    | none => setCtx i (fun c => { c with state := .stalled, remainder := b :: bs }) got.2
    | some buf =>
      let s := enterByte i buf b got.2
      let c := s.engine.ctx[i]
      if cutsAt s.engine.chunkClass c.len c.sum then
        let s := cutChunk i buf s
        if currentIs i c.serial s then enterBytes i bs s else s
      else enterBytes i bs s

/-! ### Requests of the session manager -/

/-- CTX_BIND (R4). -/
def execCtxBind (i : SessionNo) (s : State) : Host.Outcome State Fault Refusal :=
  .next (asWork (.cmd (.ctxBind i)) (fun s =>
    if (s.engine.ctx[i]).state = .free then setCtx i (fun _ => { Context.reset with state := .ready }) s else s) s)

/-- CTX_OPEN (R4, R5). -/
def execCtxOpen (i : SessionNo) (serial : Word) (s : State) : Host.Outcome State Fault Refusal :=
  .next (asWork (.cmd (.ctxOpen i serial)) (fun s =>
    if (s.engine.ctx[i]).state = .ready then
      setCtx i (fun c => { c.fresh with state := .cutting, serial := serial }) s
    else s) s)

/-- CTX_ENTER (R4, R6). In HALTED it has no effect, as for CTX_END and BUFFER_GRANT, while the other requests on contexts
still act: R162 does not name the cutting engine (DESIGN CHOICE, log 42). -/
def execCtxEnter (i : SessionNo) (bytes : List Byte) (s : State) : Host.Outcome State Fault Refusal :=
  .next (ownerWork (.ctxEnter i bytes) (fun s =>
    if (s.engine.ctx[i]).state = .cutting then enterBytes i bytes s else s) s)

/-- CTX_END (R4, R11): the end-of-object cut when len is above 0, then "object cut" and READY. In HALTED it has no effect
(DESIGN CHOICE, log 42). -/
def execCtxEnd (i : SessionNo) (s : State) : Host.Outcome State Fault Refusal :=
  .next (ownerWork (.ctxEnd i) (fun s =>
    let c := s.engine.ctx[i]
    if c.state = .cutting then
      let s := setCtx i (fun c => { c with state := .ready }) s
      let s :=
        match c.buffer with
        | some buf => if 0 < c.len then cutChunk i buf s else s
        | none => s
      post (.objectCut i c.serial) s
    else s) s)

/-- Drop the current object of a context (R14). -/
def discardCtx (i : SessionNo) (s : State) : State :=
  let c := s.engine.ctx[i]
  if c.state = .cutting ∨ c.state = .stalled then
    let s := setCtx i (fun c => { c.fresh with state := .ready, remainder := [] }) (leaveOrder (.context i) s)
    match c.buffer with
    | some buf => releaseBuffer buf s
    | none => s
  else s

/-- CTX_DISCARD (R4, R14). -/
def execCtxDiscard (i : SessionNo) (s : State) : Host.Outcome State Fault Refusal :=
  .next (asWork (.cmd (.ctxDiscard i)) (discardCtx i) s)

/-- CTX_UNBIND (R4, R14). -/
def execCtxUnbind (i : SessionNo) (s : State) : Host.Outcome State Fault Refusal :=
  .next (asWork (.cmd (.ctxUnbind i)) (fun s => setCtx i (fun _ => Context.reset) (discardCtx i s)) s)

end Sys2Proof.Machine
end

