-- ==== Sys2Proof/Machine/Albums.lean ====
section
/-! DEFINITION. Album turnover (R93), replication fetches (R104 to R108), and the requests on albums (R100, R109 to
R113). -/

namespace Sys2Proof.Machine

/-! ### Turnover -/

/-- One draft object at an album's turnover (R93): a photo is made at the next origin seq with its MARKs, or its key is
taken and it is dropped. Gives the position made. -/
def turnObject (album : Nat) (d : DraftObject) (ext : Option Extent) (s : State) : Option Nat × State :=
  if (findPhoto album d.photo s).isSome then
    let s := sendDrops .catalog (d.elems.map (·.id)) s
    (none, match ext with | some e => freeExtent e s | none => s)
  else
    let pos := s.catalog.photos.length
    let seq := s.catalog.ownCounter + 1
    let s := noteChange .ownCounter { s with catalog.ownCounter := seq }
    (some pos,
      sendMarks (d.elems.map (·.id)) (addPhoto
        { album := album, id := d.photo, origin := s.conf.tag, seq := seq, length := d.length, caption := d.caption,
          state := .held, holders := [s.conf.tag], more := false, extent := ext } s))

/-- A draft object after the catalog has finished it (R132): its elements marked where it became a photo, and without a
reference where its key was taken. -/
def DraftObject.turnedOver (made : Bool) (d : DraftObject) : DraftObject :=
  { d with turned := true,
           elems := d.elems.map (fun e => { e with standing := if made then .marked else .none }) }

/-- Set an album's title where the session carried one (R88, R93). -/
def setTitle (album : Nat) (title : Option (List Byte)) (s : State) : State :=
  match title with
  | none => s
  | some t =>
    if h : album < 32 then
      noteChange (.album album) { s with catalog.titles := put s.catalog.titles ⟨album, h⟩ (some t) }
    else s

/-! ### Fetches -/

/-- Is this serial that of fetch context `f` (R108)? -/
def fetchIs (f : FetchNo) (serial : Word) (s : State) : Bool :=
  (s.catalog.fetches[f]).any (fun x => x.serial = serial)

/-- The elements of a fetch that hold a reference (R107). -/
def heldByFetch (x : Fetch) : List ChunkId :=
  (x.elems.filter (fun e => e.standing = .settled || e.standing = .waiting)).map (·.id)

/-- A fetch context becomes FREE, and the head of the wanted list is taken up (R102, R106). -/
def endFetch (f : FetchNo) (s : State) : State :=
  let slots := match s.catalog.fetches[f] with | some x => List.range x.elems.length | none => []
  takeUpWanted (noteFetchElements f slots
    (noteChange (.fetch f.val) { s with catalog.fetches := put s.catalog.fetches f none }))

/-- A fetch fails (R107). -/
def failFetch (f : FetchNo) (s : State) : State :=
  match s.catalog.fetches[f] with
  | none => s
  | some x =>
    let s := withdrawAsk (.fetch f) s
    let s :=
      match x.buffer with
      | some b => releaseBuffer b s
      | none => leaveOrder (.fetch f) s
    let s := sendDrops .catalog (heldByFetch x) s
    let s := match x.extent with | .written e => freeExtent e s | _ => s
    let s := makeWanted x.photo (s.now + 600) s
    endFetch f s

/-- The fetched photo becomes HELD: marks, entry, slots freed, and a checkpoint to cover it (R106). -/
def completeFetch (f : FetchNo) (x : Fetch) (ext : Option Extent) (s : State) : State :=
  let s := sendMarks (x.elems.map (·.id)) s
  let s := noteHeld x.photo (setPhoto x.photo (fun p =>
    { ownJoins s.conf.tag p with extent := ext, caption := x.caption, state := .held }) s)
  let s := noteFetchElements f (List.range x.elems.length)
    (setFetch f (fun x => { x with elems := [], phase := .announcing, extent := .absent }) s)
  post (.checkpointRequest (some (.fetch f))) s

/-- In SETTLING, once no element waits, the recipe's extent is asked for (R106). -/
def tryExtent (f : FetchNo) (s : State) : State :=
  match s.catalog.fetches[f] with
  | none => s
  | some x =>
    if x.phase = .settling ∧ x.elems.all (fun e => e.standing = .settled) then
      let r := placeExtent (.fetchExtent f) (x.elems.map (·.id)) [] false s
      match r.1 with
      | .absent => completeFetch f x none r.2
      | .failed => failFetch f r.2
      | e => setFetch f (fun x => { x with phase := .extent, extent := e }) r.2
    else s

/-- The next step of a fetch (R104, R105): a claim without bytes for the next element, the next page, or SETTLING once
the lengths add up. -/
def advanceFetch (f : FetchNo) (s : State) : State :=
  match s.catalog.fetches[f] with
  | none => s
  | some x =>
    match x.elems[x.next]?, s.catalog.photos[x.photo]? with
    | some e, _ =>
      post (.claim { id := e.id, wanted := .two, claimant := .fetch f x.serial x.next, buffer := none })
        (setFetch f (fun x => { x with phase := .chunks }) s)
    | none, some p =>
      if x.more then
        askRecipe f x.source p x.elems.length (setFetch f (fun x => { x with phase := .recipe }) s)
      else if (x.elems.map (fun e => e.id.length)).sum = p.length then
        tryExtent f (setFetch f (fun x => { x with phase := .settling }) s)
      else failFetch f s
    | none, none => failFetch f s

/-- A page of recipe elements: 20 bytes each, filling the bytes exactly. -/
def pageElements (bs : List Byte) : Option (List ChunkId) :=
  if bs.length % 20 = 0 then some (elementsOf (bs.length / 20) bs) else none

/-- The head of a photo's first recipe page: element count, length, caption, and the rest (R104, R195). -/
def pageHead (bs : List Byte) : Option (Nat × Nat × Option (List Byte) × List Byte) :=
  let n := (bs.getD 10 0).toNat
  if bs.length < 11 ∨ 64 < n ∨ bs.length < 11 + n then none
  else
    some (fieldAt bs 0 4, fieldAt bs 4 6, if n = 0 then none else some ((bs.drop 11).take n), bs.drop (11 + n))

/-- An element of a fetch takes a standing, with what else changes of the context (R105, R132). -/
def setFetchElement (f : FetchNo) (pos : Nat) (st : FetchStanding) (g : Fetch → Fetch) (s : State) : State :=
  noteFetchElements f [pos] (setFetch f (fun x =>
    { g x with elems := changeAt (fun e => { e with standing := st }) pos x.elems }) s)

/-- A GET_RECIPE page reaches its fetch (R104). One that carries more than the 64 elements of R110 is taken whole: R104 has no
test of it (DESIGN CHOICE, log 47). -/
def fetchPage (f : FetchNo) (code : Byte) (body : List Byte) (more : Bool) (s : State) : State :=
  match s.catalog.fetches[f] with
  | none => s
  | some x =>
    match s.catalog.photos[x.photo]? with
    | none => failFetch f s
    | some p =>
      let first := x.elems.isEmpty
      let parts : Option (Nat × Option (List Byte) × List ChunkId) :=
        if first then
          match pageHead body with
          | some (e, len, caption, rest) =>
            if len = p.length then (pageElements rest).map (fun es => (e, caption, es)) else none
          | none => none
        else (pageElements body).map (fun es => (x.count, x.caption, es))
      let s := setFetch f (fun x => { x with outstanding := none }) s
      match parts with
      | none => failFetch f s
      | some (e, caption, es) =>
        let idGood : Bool :=
          if !first then true
          else
            (e ≠ 0 || p.id = 0) &&
              match es with
              | [] => e = 0
              | c :: _ => c.print.setWidth 64 = p.id
        if code ≠ codeByte .ok ∨ !idGood ∨ (more ∧ es.isEmpty) ∨
            es.any (fun c => c.length = 0 || decide (131072 < c.length)) ∨
            4194304 < slotsUsed s + es.length then failFetch f s
        else
          advanceFetch f (noteFetchElements f (List.range' x.elems.length es.length) (setFetch f (fun x =>
            { x with count := e, caption := caption, more := more,
                     elems := x.elems ++ es.map (fun c => { id := c, standing := .unclaimed }) }) s))

/-- With a buffer at hand, GET_CHUNK by print goes to the source (R105). -/
def askChunk (f : FetchNo) (b : BufferNo) (s : State) : State :=
  match s.catalog.fetches[f] with
  | none => s
  | some x =>
    match x.elems[x.next]? with
    | none => s
    | some e =>
      sendAsk { asker := .fetch f, target := x.source, kind := .getChunk, payload := [0x02] ++ elementBytes e.id }
        (setFetch f (fun x => { x with outstanding := some .getChunk, buffer := some b }) s)

/-- A DATA frame reaches its fetch (R105). -/
def fetchData (f : FetchNo) (off : Nat) (bytes : List Byte) (s : State) : State :=
  match s.catalog.fetches[f] with
  | some { buffer := some b, elems := elems, next := next, .. } =>
    let have0 := (s.engine.buffers[b]).bytes
    match elems[next]? with
    | none => s
    | some e =>
      if off ≠ have0.length ∨ e.id.length < have0.length + bytes.length then failFetch f s
      else fillBuffer b (have0 ++ bytes) s
  | _ => s

/-- The closing REPLY of GET_CHUNK reaches its fetch: the bytes are checked and claimed (R105). -/
def fetchChunkReply (f : FetchNo) (code : Byte) (s : State) : State :=
  match s.catalog.fetches[f] with
  | some { buffer := some b, elems := elems, next := next, serial := serial, .. } =>
    let bytes := (s.engine.buffers[b]).bytes
    let s := setFetch f (fun x => { x with outstanding := none }) s
    match elems[next]? with
    | none => s
    | some e =>
      if code ≠ codeByte .ok ∨ bytes.length ≠ e.id.length ∨ printOf bytes ≠ e.id.print then failFetch f s
      else
        post (.claim { id := e.id, wanted := .two, claimant := .fetch f serial next, buffer := some b })
          (passBuffer b .index (setFetchElement f next .unclaimed (fun x => { x with buffer := none }) s))
  | _ => s

/-- A REPLY reaches its fetch (R104, R105). -/
def fetchReply (f : FetchNo) (kind : AskKind) (code : Byte) (body : List Byte) (more : Bool) (s : State) : State :=
  match kind with
  | .getRecipe => fetchPage f code body more s
  | .getChunk => fetchChunkReply f code s
  | .catalogSince => s

/-- An element of a fetch takes a standing, and the fetch goes on to the next (R105). -/
def fetchElement (f : FetchNo) (pos : Nat) (st : FetchStanding) (s : State) : State :=
  advanceFetch f (setFetchElement f pos st (fun x => { x with next := pos + 1 }) s)

/-- Does a claim with this outcome hold a reference (R69, R108)? -/
def takesReference (r : ClaimResult) : Bool :=
  match r with
  | .hit => true
  | .hitUnsettled => true
  | .revive => true
  | .miss => true
  | .needsBytes => false
  | .indexFull => false

/-- FETCH_CLAIM_OUTCOME (R105, R108). -/
def execFetchClaimOutcome (f : FetchNo) (serial : Word) (pos : Nat) (id : ChunkId) (r : ClaimResult) (s : State) :
    Host.Outcome State Fault Refusal :=
  .next (ownerWork (.fetchClaimOutcome f serial pos id r) (fun s =>
    if fetchIs f serial s then
      match r with
      | .hit => fetchElement f pos .settled s
      | .hitUnsettled => fetchElement f pos .waiting s
      | .revive => fetchElement f pos .waiting s
      | .miss => fetchElement f pos .waiting s
      | .indexFull => failFetch f s
      | .needsBytes =>
        let s := setFetchElement f pos .bare (fun x => x) s
        match requestBuffer (.fetch f) s with
        | (some b, s) => askChunk f b s
        | (none, s) => s
    else if takesReference r then sendDrop .catalog id s
    else s) s)

/-- A settle report at one fetch (R105). -/
def settleFetch (id : ChunkId) (r : Settled) (s : State) (f : FetchNo) : State :=
  match s.catalog.fetches[f] with
  | none => s
  | some x =>
    let named := placesWhere (fun e => e.id = id && e.standing = .waiting) x.elems
    if !named.isEmpty then
      if r = .stored then
        tryExtent f (noteFetchElements f named (setFetch f (fun x =>
          { x with elems := x.elems.map (fun e =>
              if e.id = id ∧ e.standing = .waiting then { e with standing := .settled } else e) }) s))
      else failFetch f s
    else s

/-- FETCH_SETTLE_REPORT (R105, R106). Of two fetches that wait for the entry, context 0 acts before context 1 (DESIGN CHOICE,
log 46). -/
def execFetchSettleReport (id : ChunkId) (r : Settled) (s : State) : Host.Outcome State Fault Refusal :=
  .next (ownerWork (.fetchSettleReport id r) (fun s => (List.finRange 2).foldl (settleFetch id r) s) s)

/-- A WRITE of a fetched recipe's extent ends (R39, R106). -/
def fetchExtentEnded (f : FetchNo) (good : Bool) (s : State) : State :=
  match s.catalog.fetches[f] with
  | none => s
  | some x =>
    if x.phase = .extent then
      let r := extentWriteEnded (.fetchExtent f) good x.extent s
      match r.1 with
      | .written e => completeFetch f x (some e) r.2
      | .failed => failFetch f (setFetch f (fun x => { x with extent := .failed }) r.2)
      | e => setFetch f (fun x => { x with extent := e }) r.2
    else s

/-- The checkpoint covering a fetch has completed: HOLDING leaves, and once it has joined the transmit queue the context is
FREE (R94, R106, R191). -/
def fetchCovered (f : FetchNo) (s : State) : State :=
  match s.catalog.fetches[f] with
  | none => s
  | some x =>
    if x.phase = .announcing then
      match s.catalog.photos[x.photo]? with
      | some p => transmitThen [holdingFrame [summaryFor p] s] (.freed f) (endFetch f) s
      | none => endFetch f s
    else s

/-! ### Album reads -/

/-- Photo entries of an album, in position order (R109). -/
def albumPhotos (album : Nat) (s : State) : List Photo := s.catalog.photos.filter (fun p => p.album = album)

/-- A photo record of LIST_ALBUM (R109, R195). -/
def photoRecord (p : Photo) : List Byte :=
  beBytes 8 p.id.toNat ++ beBytes 2 p.origin.toNat ++ beBytes 4 p.seq ++ beBytes 6 p.length ++
    [boolByte (p.state = .held)] ++ beBytes 1 (holderCount p) ++ textBytes p.caption

/-- The title of an album. -/
def titleOf (album : Nat) (s : State) : Option (List Byte) :=
  if h : album < 32 then s.catalog.titles[(⟨album, h⟩ : Fin 32)] else none

/-- LIST_ALBUM (R109). -/
def execListAlbum (h : ReqHdr) (album first : Nat) (s : State) : Host.Outcome State Fault Refusal :=
  .next (ownerWork (.listAlbum h album first) (fun s =>
    let s := takeRequest (.listAlbum h album first) s
    if 31 < album then refuse h .badRequest s
    else
      let all := albumPhotos album s
      let page := (all.drop first).take 16
      answer h .ok
        (textBytes (titleOf album s) ++ beBytes 4 all.length ++
          beBytes 4 (all.filter (fun p => p.state = .held)).length ++ page.flatMap photoRecord)
        (decide (first + page.length < all.length) && !page.isEmpty) s) s)

/-- NOT_HELD carries the holder list and the "more" mark (R112, R195). -/
def answerNotHeld (h : ReqHdr) (p : Photo) (s : State) : State :=
  answer h .notHeld
    (beBytes 1 p.holders.length ++ [boolByte p.more] ++ p.holders.flatMap (fun t => beBytes 2 t.toNat)) false s

/-- A photo not held here is answered by what the catalog and the peer table know (R112). -/
def answerUnheld (h : ReqHdr) (id : PhotoId) (found : Option Photo) (s : State) : State :=
  match found with
  | some p =>
    match p.holders with
    | [] => answerNotHeld h p s
    | t :: _ =>
      if p.holders.all (fun t => heardOf t s = some .asleep) then
        match proxyWake t s with
        | (.started, s) => refuse h .waking s
        | (.active, s) => refuse h .waking s
        | (.noSlot, s) => answerNotHeld h p s
        | (.notProxied, s) => answerNotHeld h p s
      else answerNotHeld h p s
  | none =>
    match digestHolder id s with
    | none => refuse h .notFound s
    | some t =>
      match proxyWake t s with
      | (.started, s) => refuse h .waking s
      | (.active, s) => refuse h .waking s
      | (.noSlot, s) => refuse h .notFound s
      | (.notProxied, s) => refuse h .notFound s

/-- Is a member PRESENT (R34)? -/
def memberPresent (number : Nat) (s : State) : Bool :=
  match slotOf number s with
  | none => false
  | some d => match s.alloc.members[d] with | some m => m.map.isSome | none => false

/-- Read the recipe blocks that hold `take` elements from `first` on, at SERVE class (R86, R87, R110, R111; log 24);
DAMAGED where the extent's member is MISSING. -/
def readRecipe (h : ReqHdr) (form : ReadForm) (e : Extent) (first take : Nat) (use : RecipeUse) (s : State) : State :=
  if memberPresent e.place.member s then
    offerAt e.place.member
      { requester := .recipeRead { hdr := h, form := form, skip := first % 204, use := use }, cls := .serve,
        op := .read (e.place.first + first / 204) ((first + take - 1) / 204 - first / 204 + 1) } s
  else refuse h .damaged s

/-- A recipe READ ends (R86, R87, R110, R111). -/
def recipeReadEnded (job : RecipeJob) (res : DiskResult) (data : ReadData) (s : State) : State :=
  match res, data with
  | .done, .bytes bs =>
    let es := (blockElements (bs.length / 4096) bs).drop job.skip
    match job.use with
    | .page take more head => answer job.hdr .ok (head ++ (es.take take).flatMap elementBytes) more s
    | .chunk =>
      match es with
      | [] => refuse job.hdr .damaged s
      | e :: _ => post (.vread e .serve { hdr := job.hdr, form := job.form }) s
  | _, _ => refuse job.hdr .damaged s

/-- The entry of a key. -/
def photoOf (album : Nat) (id : PhotoId) (s : State) : Option Photo := s.catalog.photos.find? (keyIs album id)

/-- The element count of a HELD photo (R89). -/
def photoElements (p : Photo) : Nat := match p.extent with | some e => e.count | none => 0

/-- GET_RECIPE in album form (R110, R112). -/
def execGetRecipeAlbum (h : ReqHdr) (album : Nat) (photo : PhotoId) (first : Nat) (s : State) :
    Host.Outcome State Fault Refusal :=
  .next (ownerWork (.getRecipeAlbum h album photo first) (fun s =>
    let s := takeRequest (.getRecipeAlbum h album photo first) s
    if 31 < album then refuse h .badRequest s
    else
      match photoOf album photo s with
      | none => answerUnheld h photo none s
      | some p =>
        if p.state ≠ .held then answerUnheld h photo (some p) s
        else
          let count := photoElements p
          let head : List Byte :=
            if first = 0 then beBytes 4 count ++ beBytes 6 p.length ++ textBytes p.caption else []
          match p.extent with
          | none => if first = 0 then answer h .ok head false s else refuse h .badRequest s
          | some e =>
            if count ≤ first then refuse h .badRequest s
            else
              let take := min 64 (count - first)
              readRecipe h .album e first take (.page take (decide (first + take < count)) head) s) s)

/-- GET_CHUNK in album form (R111, R112). -/
def execGetChunkAlbum (h : ReqHdr) (album : Nat) (photo : PhotoId) (index : Nat) (s : State) :
    Host.Outcome State Fault Refusal :=
  .next (ownerWork (.getChunkAlbum h album photo index) (fun s =>
    let s := takeRequest (.getChunkAlbum h album photo index) s
    if 31 < album then refuse h .badRequest s
    else
      match photoOf album photo s with
      | none => answerUnheld h photo none s
      | some p =>
        if p.state ≠ .held then answerUnheld h photo (some p) s
        else
          match p.extent with
          | none => refuse h .badRequest s
          | some e => if e.count ≤ index then refuse h .badRequest s else readRecipe h .album e index 1 .chunk s) s)

/-- GET_CHUNK by print (R113). -/
def execGetChunkPrint (h : ReqHdr) (id : ChunkId) (s : State) : Host.Outcome State Fault Refusal :=
  .next (ownerWork (.getChunkPrint h id) (fun s =>
    let s := takeRequest (.getChunkPrint h id) s
    if !h.box then refuse h .notPermitted s
    else
      let s := indexAnswers (lookupAnswer id s) s
      match findEntry id s with
      | some (_, e) =>
        if e.mark then post (.vread id .copying { hdr := h, form := .print }) s else refuse h .notFound s
      | none => refuse h .notFound s) s)

/-- The announced entries of own origin above a seq, in seq order (R100). -/
def announcedAbove (after : Nat) (s : State) : List Photo :=
  (s.catalog.photos.filter (fun p =>
    p.origin = s.conf.tag && after < p.seq && p.seq ≤ s.catalog.announced)).foldl
      (fun acc p => insertBy (fun a b => a.seq < b.seq) p acc) []

/-- CATALOG_SINCE (R100). -/
def execCatalogSince (h : ReqHdr) (origin : Tag) (after : Nat) (s : State) : Host.Outcome State Fault Refusal :=
  .next (ownerWork (.catalogSince h origin after) (fun s =>
    let s := takeRequest (.catalogSince h origin after) s
    if !h.box then refuse h .notPermitted s
    else if origin ≠ s.conf.tag then refuse h .badRequest s
    else
      let all := announcedAbove after s
      let page := all.take 32
      answer h .ok (beBytes 1 page.length ++ page.flatMap (fun p => summaryBytes (summaryFor p)))
        (decide (32 < all.length)) s) s)

end Sys2Proof.Machine
end

