-- ==== Sys2Proof/Machine/Sessions.lean ====
section
/-! DEFINITION. The session manager's requests: sessions (R61 to R63, R78, R79), objects (R65 to R71), the close (R75 to
R77), snapshots and retirement (R80 to R84), and restore reads (R85 to R87). -/

namespace Sys2Proof.Machine

/-! ### Leaving the table -/

/-- A session leaves the table: CTX_UNBIND, SESSION_IDLE stopped, the entry empty (R60). -/
def leaveTable (i : SessionNo) (s : State) : State :=
  noteChange (.session i.val)
    { post (.ctxUnbind i) (stopTimer (sessionIdleTimer i) s) with sessions.table := put s.sessions.table i none }

/-- Is the SEGMENT of a session being entered, or its last cut awaited (R61, R70)? In the second case the session is in
INTAKE still, where R61 takes each request as it comes; that one of a session's requests is worked on at a time holds the
later ones back as a SEGMENT does (DESIGN CHOICE, log 39). -/
def sessionBusy (x : Session) : Bool :=
  x.entering.isSome || x.current.any (fun o => o.ended && !o.cut)

/-- A request of a session kind: NO_SESSION without a session; deferred while a SEGMENT is being entered; otherwise taken,
with SESSION_IDLE stopped (R61). -/
def sessionRequest (h : ReqHdr) (c : Instr) (f : SessionNo → Session → State → State) (s : State) : State :=
  match sessionOf h.tag s with
  | none => refuse h .noSession (takeRequest c s)
  | some i =>
    match s.sessions.table[i] with
    | none => s
    | some x =>
      if sessionBusy x then deferRequest h c s
      else f i x (stopTimer (sessionIdleTimer i) (takeRequest c s))

/-- Is the session FINISHING or CLOSING, where its requests are answered BUSY (R61)? -/
def sessionTied (x : Session) : Bool := x.state = .finishing || x.state = .closing

/-! ### OPEN_SESSION -/

/-- Can a client be registered, and in which entry (R63): the lowest free one, else the lowest of a client with an empty
list and no session. -/
def registerPlace (s : State) : Option (Fin 16) :=
  match (List.finRange 16).find? (fun i => (s.sessions.clients[i]).isNone) with
  | some i => some i
  | none =>
    (List.finRange 16).find? (fun i =>
      (s.sessions.clients[i]).any (fun c => c.snapshots.isEmpty && (sessionOf c.tag s).isNone))

/-- A newly registered client (R63). -/
def newClient (tag : Tag) (s : State) : Client :=
  { tag := tag, quota := s.conf.quota, used := 0, reserved := 0, retention := s.conf.retention, lastSnapshot := 0,
    snapshots := [] }

/-- A new session's entry (R62). -/
def newSession (tag : Tag) (k : SessionKind) : Session :=
  { tag := tag, kind := k, state := .idle, current := none, failed := none, draft := [], reservations := 0,
    entering := none, ending := none, closing := none }

/-- Grant a session in a free entry (R62): SESSION_IDLE starts at the grant, whenever the reply joins the transmit queue
(R61). -/
def grantSession (h : ReqHdr) (i : SessionNo) (k : SessionKind) (s : State) : State :=
  let s := noteChange (.session i.val)
    { s with sessions.table := put s.sessions.table i (some (newSession h.tag k)),
             sessions.openings := put s.sessions.openings i (s.sessions.openings[i] + 1) }
  answer h .ok (beBytes 1 i.val) false (startSessionIdle i (post (.ctxBind i) s))

/-- OPEN_SESSION (R62, R63). One answered SESSION_OPEN leaves SESSION_IDLE of the session that stands, and an expiry of it that
is pending, as they are: R61 does not count OPEN_SESSION among the requests of a session, while R79 names it among those that
may meet the expiry (DESIGN CHOICE, log 43). One offered in AWAKE and taken after a button press has passed the sleep test is
granted in DOZING, for R62 tests no station state and R167 has all requests served: its SESSION_IDLE can then enter ASLEEP
running and be held, which R172 and R185 leave out (DESIGN CHOICE, log 47). -/
def openSession (h : ReqHdr) (k : OpenKind) (s : State) : State :=
  let kind : SessionKind := match k with | .backup => .backup | .album n t => .album n t
  let badAlbum : Bool :=
    match k with
    | .backup => false
    | .album n t => decide (31 < n) || t.any (fun t => decide (32 < t.length))
  if h.box then refuse h .notPermitted s
  else if badAlbum then refuse h .badRequest s
  else if (sessionOf h.tag s).isSome then refuse h .sessionOpen s
  else
    match (List.finRange 4).find? (fun i => (s.sessions.table[i]).isNone) with
    | none => refuse h .sessionsFull s
    | some i =>
      if k ≠ .backup ∨ (clientOf h.tag s).isSome then grantSession h i kind s
      else
        match registerPlace s with
        | none => refuse h .clientsFull s
        | some c =>
          grantSession h i kind
            (noteChange (.client c.val)
              { s with sessions.clients := put s.sessions.clients c (some (newClient h.tag s)) })

/-- OPEN_SESSION (R62). -/
def execOpenSession (h : ReqHdr) (k : OpenKind) (s : State) : Host.Outcome State Fault Refusal :=
  .next (ownerWork (.openSession h k) (fun s => openSession h k (takeRequest (.openSession h k) s)) s)

/-! ### Objects -/

/-- Would an object exceed its client's quota (R65)? -/
def overQuota (x : Session) (declared : Nat) (s : State) : Bool :=
  match (clientOf x.tag s).bind (fun c => s.sessions.clients[c]) with
  | some c => isBackup x && c.quota ≠ 0 && decide (c.quota < c.used + c.reserved + declared)
  | none => false

/-- Open an object in a session (R65). R65 gives a caption to ALBUM sessions; one sent in a BACKUP session is dropped, and
the request taken (DESIGN CHOICE, log 39). -/
def openObject (i : SessionNo) (h : ReqHdr) (x : Session) (object : ObjectId) (declared : Nat)
    (caption : Option (List Byte)) (s : State) : State :=
  let serial := s.sessions.nextSerial
  let o : CurrentObject :=
    { id := object, serial := serial, declared := declared, received := 0,
      caption := if isBackup x then none else caption, photo := none, elems := [], ended := false, cut := false }
  let s := { s with sessions.nextSerial := nextSerial serial }
  let s := if isBackup x then setClientOf x.tag (fun c => { c with reserved := c.reserved + declared }) s else s
  let s := setSession i (fun x =>
    { x with failed := none, current := some o, state := .intake,
             reservations := if isBackup x then x.reservations else x.reservations + 1 }) s
  answerSession i h .ok [] (post (.ctxOpen i serial) s)

/-- BEGIN_OBJECT in a session (R65). -/
def beginObject (i : SessionNo) (h : ReqHdr) (x : Session) (object : ObjectId) (declared : Nat)
    (caption : Option (List Byte)) (s : State) : State :=
  if sessionTied x then answerSession i h .busy [] s
  else
    match x.state, x.current with
    | .intake, some o =>
      answerSession i h
        (if o.id = object ∧ o.declared = declared ∧ o.received = 0 then .ok else .badRequest) [] s
    | _, _ =>
      if 2 ^ 40 - 1 < declared ∨ caption.any (fun c => decide (64 < c.length)) then
        answerSession i h .badRequest [] s
      else if x.draft.any (fun d => d.id = object) then answerSession i h .nameTaken [] s
      else if 4096 ≤ x.draft.length then answerSession i h .draftFull [] s
      else if !isBackup x ∧ !positionFree s then answerSession i h .catalogFull [] s
      else if overQuota x declared s then answerSession i h .quota [] s
      else openObject i h x object declared caption s

/-- BEGIN_OBJECT (R65). -/
def execBeginObject (h : ReqHdr) (object : ObjectId) (declared : Nat) (caption : Option (List Byte)) (s : State) :
    Host.Outcome State Fault Refusal :=
  .next (ownerWork (.beginObject h object declared caption)
    (sessionRequest h (.beginObject h object declared caption)
      (fun i x s => beginObject i h x object declared caption s)) s)

/-- The answer for an object that is not the current one (R66, R70): the failed object note, the newest draft object,
or BAD_REQUEST. -/
def pastObject (x : Session) (object : ObjectId) (newest : Code) : Code :=
  match x.failed with
  | some (id, c) =>
    if id = object then c
    else if x.draft.getLast?.any (fun d => d.id = object) then newest
    else .badRequest
  | none => if x.draft.getLast?.any (fun d => d.id = object) then newest else .badRequest

/-- An object fails while a request for it is answered with the same code (R66, R70, R75). -/
def failAnswering (i : SessionNo) (h : ReqHdr) (c : Code) (s : State) : State :=
  answerSession i h c [] (failObject i c s)

/-- SEGMENT in a session (R66). -/
def takeSegment (i : SessionNo) (h : ReqHdr) (x : Session) (object : ObjectId) (offset : Nat) (bytes : List Byte)
    (s : State) : State :=
  if sessionTied x then answerSession i h .busy [] s
  else
    match x.current with
    | none => answerSession i h (pastObject x object .duplicate) [] s
    | some o =>
      if o.id ≠ object then answerSession i h (pastObject x object .duplicate) [] s
      else if offset < o.received then answerSession i h .duplicate [] s
      else if o.received < offset then failAnswering i h .gap s
      else if o.declared < offset + bytes.length then failAnswering i h .long s
      else if bytes.isEmpty then answerSession i h .ok [] s
      else
        post (.ctxEnter i bytes) (setSession i (fun x =>
          { x with entering := some h,
                   current := x.current.map (fun o => { o with received := o.received + bytes.length }) }) s)

/-- SEGMENT (R66). -/
def execSegment (h : ReqHdr) (object : ObjectId) (offset : Nat) (bytes : List Byte) (s : State) :
    Host.Outcome State Fault Refusal :=
  .next (ownerWork (.segment h object offset bytes)
    (sessionRequest h (.segment h object offset bytes)
      (fun i x s => takeSegment i h x object offset bytes s)) s)

/-- END_OBJECT in a session (R70). -/
def endObject (i : SessionNo) (h : ReqHdr) (x : Session) (object : ObjectId) (s : State) : State :=
  if sessionTied x then answerSession i h .busy [] s
  else
    match x.current with
    | none => answerSession i h (pastObject x object .ok) [] s
    | some o =>
      if o.id ≠ object then answerSession i h .badRequest [] s
      else if o.received ≠ o.declared then failAnswering i h .short s
      else
        post (.ctxEnd i) (setSession i (fun x =>
          { x with ending := some h, current := x.current.map (fun o => { o with ended := true }) }) s)

/-- END_OBJECT (R70). -/
def execEndObject (h : ReqHdr) (object : ObjectId) (s : State) : Host.Outcome State Fault Refusal :=
  .next (ownerWork (.endObject h object)
    (sessionRequest h (.endObject h object) (fun i x s => endObject i h x object s)) s)

/-- "Segment entered": the SEGMENT is answered OK, and the session can take again (R13, R66). -/
def execSegmentEntered (i : SessionNo) (serial : Word) (s : State) : Host.Outcome State Fault Refusal :=
  .next (ownerWork (.segmentEntered i serial) (fun s =>
    match s.sessions.table[i] with
    | some { entering := some h, .. } =>
      if currentIs i serial s then
        post (.ownerReady .sessions)
          (answerSession i h .ok [] (setSession i (fun x => { x with entering := none }) s))
      else s
    | _ => s) s)

/-- "Object cut": the photo key of an empty ALBUM object is tested, and the session enters FINISHING (R70, R71). -/
def execObjectCut (i : SessionNo) (serial : Word) (s : State) : Host.Outcome State Fault Refusal :=
  .next (ownerWork (.objectCut i serial) (fun s =>
    match s.sessions.table[i] with
    | some { current := some o, .. } =>
      if o.serial = serial ∧ o.ended ∧ !o.cut then
        let s := setSession i (fun x =>
          { x with state := .finishing, current := x.current.map (fun o => { o with cut := true }) }) s
        let s := post (.ownerReady .sessions) s
        tryFinish i (if o.elems.isEmpty then testPhotoKey i 0 s else s)
      else s
    | _ => s) s)

/-- Record an outcome against an element of the current object (R67). -/
def recordOutcome (i : SessionNo) (pos : Nat) (st : ElemStanding) (s : State) : State :=
  noteElements i (objectPlace i s) [pos] (setSession i (fun x =>
    { x with current := x.current.map (fun o =>
        { o with elems := changeAt (fun e => { e with standing := st }) pos o.elems }) }) s)

/-- CLAIM_OUTCOME (R67, R69). -/
def execClaimOutcome (i : SessionNo) (serial : Word) (pos : Nat) (id : ChunkId) (r : ClaimResult) (s : State) :
    Host.Outcome State Fault Refusal :=
  .next (ownerWork (.claimOutcome i serial pos id r) (fun s =>
    if currentIs i serial s then
      match r with
      | .hit => tryFinish i (recordOutcome i pos .settled s)
      | .hitUnsettled => recordOutcome i pos .waiting s
      | .revive => recordOutcome i pos .waiting s
      | .miss => recordOutcome i pos .waiting s
      | .needsBytes => recordOutcome i pos .none s
      | .indexFull => failObject i .indexFull (recordOutcome i pos .none s)
    else if takesReference r then sendDrop .sessions id s
    else s) s)

/-- A settle report at one session (R67, R70). -/
def settleSession (id : ChunkId) (r : Settled) (s : State) (i : SessionNo) : State :=
  match s.sessions.table[i] with
  | some { current := some o, .. } =>
    let named := placesWhere (fun e => e.id = id && e.standing = .waiting) o.elems
    if !named.isEmpty then
      match r with
      | .stored =>
        tryFinish i (noteElements i (objectPlace i s) named (setSession i (fun x =>
          { x with current := x.current.map (fun o =>
              { o with elems := o.elems.map (fun e =>
                  if e.id = id ∧ e.standing = .waiting then { e with standing := .settled } else e) }) }) s))
      | .lostNoSpace => failObject i .noSpace s
      | .lostWriteFailed => failObject i .storeFailed s
    else s
  | _ => s

/-- SESSION_SETTLE_REPORT (R67, R70). Sessions whose objects wait for the entry act in the order of their numbers (DESIGN
CHOICE, log 46). -/
def execSessionSettleReport (id : ChunkId) (r : Settled) (s : State) : Host.Outcome State Fault Refusal :=
  .next (ownerWork (.sessionSettleReport id r) (fun s => (List.finRange 4).foldl (settleSession id r) s) s)

/-! ### Retirement -/

/-- The snapshot of a retirement item, with its client's place. -/
def itemSnapshot (t : RetireItem) (s : State) : Option (Fin 16 × Snapshot) :=
  match clientOf t.client s with
  | none => none
  | some c =>
    match s.sessions.clients[c] with
    | none => none
    | some k => (k.snapshots.find? (fun n => n.number = t.snapshot)).map (fun n => (c, n))

/-- The part of the image that holds a retirement item (R131). -/
def itemPart (t : RetireItem) : ImagePart := .retirement t.client.toNat t.snapshot.toNat

/-- The parts of the image that hold a snapshot: itself and its object records (R80, R131). -/
def snapshotParts (c : Fin 16) (n : Snapshot) : List ImagePart :=
  .snapshot c.val n.number.toNat :: (List.range n.objects.length).map (.objectRecord c.val n.number.toNat)

/-- Change the first ready item, which is `t`, and report it. -/
def setItem (t : RetireItem) (f : RetireItem → RetireItem) (s : State) : State :=
  noteChange (itemPart t)
    { s with sessions.retire := changeFirst (fun t => !t.blocked) f s.sessions.retire }

/-- The first ready item is marked blocked and moved to the end of the queue (R84). -/
def blockItem (t : RetireItem) (s : State) : State :=
  noteChange (itemPart t)
    { s with sessions.retire :=
        dropFirst (fun t => !t.blocked) s.sessions.retire ++ [{ t with blocked := true }] }

/-- A snapshot's retirement completes (R83). -/
def completeRetire (t : RetireItem) (c : Fin 16) (n : Snapshot) (s : State) : State :=
  let s := n.objects.foldl (fun s o => match o.extent with | some e => freeExtent e s | none => s) s
  let s := noteChanges (snapshotParts c n) (setClient c (fun k =>
    { k with snapshots := k.snapshots.filter (fun m => m.number ≠ n.number), used := k.used - n.logical }) s)
  let s := noteChange (itemPart t)
    { s with sessions.retire := dropFirst (fun t => !t.blocked) s.sessions.retire }
  post (.checkpointRequest none) s

/-- The first object record with elements at or after a record index, with its index. -/
def objectFrom (n : Nat) (os : List ObjectRecord) : Option (Nat × Extent) :=
  match (os.zipIdx.drop n).find? (fun o => o.1.extent.isSome) with
  | some (o, i) => o.extent.map (fun e => (i, e))
  | none => none

/-- Retirement goes on with the first ready item: the page READ at its cursor, its completion, or its block (R82 to
R84). -/
def retireStep : Nat → State → State
  | 0, s => s
  | fuel + 1, s =>
    if s.sessions.pageOut then s
    else
      match s.sessions.retire.find? (fun t => !t.blocked) with
      | none => s
      | some t =>
        match itemSnapshot t s with
        | none =>
          retireStep fuel (noteChange (itemPart t)
            { s with sessions.retire := dropFirst (fun t => !t.blocked) s.sessions.retire })
        | some (c, n) =>
          match objectFrom t.object n.objects with
          | none => retireStep fuel (completeRetire t c n s)
          | some (i, e) =>
            let element := if i = t.object then t.element else 0
            let s := if i = t.object then s else setItem t (fun t => { t with object := i, element := 0 }) s
            if memberPresent e.place.member s then
              offerAt e.place.member
                { requester := .retirePage, cls := .store, op := .read (e.place.first + element / 204) 1 }
                { s with sessions.pageOut := true }
            else retireStep fuel (blockItem { t with object := i, element := element } s)

/-- Retirement goes on (R82). -/
def retire (s : State) : State := retireStep (s.sessions.retire.length + 1) s

/-- A retirement page READ ends: its elements are dropped with the cursor, or the item is blocked (R82, R84). -/
def retirePageEnded (res : DiskResult) (data : ReadData) (s : State) : State :=
  let s := { s with sessions.pageOut := false }
  match s.sessions.retire.find? (fun t => !t.blocked) with
  | none => s
  | some t =>
    match res, data, itemSnapshot t s with
    | .done, .bytes bs, some (_, n) =>
      match (n.objects[t.object]?).bind (·.extent) with
      | none => retire s
      | some e =>
        let page := t.element / 204
        let es := (elementsOf (min 204 (e.count - page * 204)) bs).drop (t.element % 204)
        let next := min e.count ((page + 1) * 204)
        let s := setItem t (fun t =>
          if e.count ≤ next then { t with object := t.object + 1, element := 0 } else { t with element := next }) s
        retire (sendDrops .sessions es s)
    | _, _, _ => retire (blockItem t s)

/-- A snapshot becomes RETIRING and joins the end of the retirement queue (R76, R81). -/
def makeRetiring (c : Fin 16) (number : Word) (s : State) : State :=
  match s.sessions.clients[c] with
  | none => s
  | some k =>
    let s := noteChange (.snapshot c.val number.toNat) (setClient c (fun k =>
      { k with snapshots := k.snapshots.map (fun n => if n.number = number then { n with retiring := true } else n) }) s)
    let t : RetireItem := { client := k.tag, snapshot := number, blocked := false, object := 0, element := 0 }
    retire (noteChange (itemPart t) { s with sessions.retire := s.sessions.retire ++ [t] })

/-! ### Closing -/

/-- The extent an extent state stands for. -/
def extentOf (e : ExtentState) : Option Extent :=
  match e with
  | .written e => some e
  | _ => none

/-- Is an extent still being written (R75)? -/
def extentBusy (e : ExtentState) : Bool :=
  match e with
  | .writing .. => true
  | _ => false

/-- The snapshot a draft becomes (R76). -/
def snapshotOf (number : Word) (draft : List DraftObject) (extents : List ExtentState) : Snapshot :=
  { number := number, retiring := false, logical := (draft.map (·.length)).sum,
    objects := (draft.zip extents).map (fun p =>
      { id := p.1.id, length := p.1.length, chunks := p.1.elems.length, extent := extentOf p.2 }) }

/-- The oldest RETAINED snapshot where RETAINED ones outnumber the retention (R76). -/
def overRetention (k : Client) : Option Word :=
  let kept := k.snapshots.filter (fun n => !n.retiring)
  if k.retention < kept.length then kept.head?.map (·.number) else none

/-- Turnover of a BACKUP close (R76). -/
def turnBackup (i : SessionNo) (x : Session) (cl : Closing) (s : State) : State :=
  match clientOf x.tag s with
  | none => s
  | some c =>
    match s.sessions.clients[c] with
    | none => s
    | some k =>
      let n := snapshotOf (k.lastSnapshot + 1) x.draft cl.extents
      let k' : Client :=
        { k with lastSnapshot := n.number, snapshots := k.snapshots ++ [n], reserved := k.reserved - n.logical,
                 used := k.used + n.logical }
      let s := noteChanges (snapshotParts c n ++ draftParts i x.draft) (setClient c (fun _ => k') s)
      let s := setSession i (fun x =>
        { x with draft := [], closing := some { cl with turned := true, snapshot := n.number, extents := [] } }) s
      match overRetention k' with
      | some old => makeRetiring c old s
      | none => s

/-- The catalog takes the next draft object of the close in hand (R93). -/
def callTurn (i : SessionNo) (s : State) : State := { s with mail := s.mail ++ [.turn i] }

/-- A close whose draft is to be turned over is handed to the catalog (R76): it waits behind the closes in turnover, so that
the photos of one close take consecutive origin seqs (R93). -/
def handTurnover (i : SessionNo) (s : State) : State :=
  let s : State := if s.catalog.turnovers.isEmpty then callTurn i s else s
  { s with catalog.turnovers := s.catalog.turnovers ++ [i] }

/-- The close in hand has been turned over, and the next one's turnover begins (R93). -/
def endTurnover (s : State) : State :=
  let rest := s.catalog.turnovers.tail
  let s := { s with catalog.turnovers := rest }
  match rest with
  | [] => s
  | j :: _ => callTurn j s

/-- An ALBUM close goes on with its turnover (R76, R93): the next draft object in draft order is handled, its reservation
consumed or given back; after the last one the title is set, the draft's slots are freed, the covering checkpoint is
requested, and the next close's turnover begins. -/
def turnNext (i : SessionNo) (s : State) : State :=
  match s.sessions.table[i] with
  | some { kind := .album n title, draft := draft, closing := some cl, .. } =>
    if cl.turned ∨ cl.failure.isSome ∨ cl.extents.any extentBusy then s
    else
      match draft.findIdx? (fun d => !d.turned) with
      | none =>
        endTurnover (post (.checkpointRequest (some (.session i)))
          (setSession i (fun x =>
            { x with draft := [], closing := some { cl with turned := true, extents := [] } })
            (noteChanges (draftParts i draft) (setTitle n title s))))
      | some k =>
        match draft[k]? with
        | none => s
        | some d =>
          let r := turnObject n d ((cl.extents[k]?).bind extentOf) s
          let s := noteChanges (.draft i.val k :: (List.range d.elems.length).map (.element i.val k)) (setSession i (fun x =>
            { x with draft := changeAt (DraftObject.turnedOver r.1.isSome) k x.draft,
                     reservations := x.reservations - 1,
                     closing := some { cl with made := cl.made ++ r.1.toList,
                                               extents := changeAt (fun _ => .absent) k cl.extents } }) r.2)
          callTurn i s
  | _ => s

/-- Free the extents of a close that failed (R75). -/
def freeExtents (es : List ExtentState) (s : State) : State :=
  es.foldl (fun s e => match extentOf e with | some e => freeExtent e s | none => s) s

/-- Once every WRITE of a close has ended: a BACKUP draft is turned over and a checkpoint requested, an ALBUM's turnover
begins, or the close fails (R75, R76). -/
def checkClose (i : SessionNo) (s : State) : State :=
  match s.sessions.table[i] with
  | some x =>
    match x.closing with
    | none => s
    | some cl =>
      if cl.turned ∨ cl.extents.any extentBusy then s
      else
        match cl.failure with
        | some c =>
          answerSession i cl.hdr c []
            (setSession i (fun x => { x with state := .idle, closing := none })
              (noteChanges (extentParts i cl.extents) (freeExtents cl.extents s)))
        | none =>
          match x.kind with
          | .backup => post (.checkpointRequest (some (.session i))) (turnBackup i x cl s)
          | .album _ _ => handTurnover i s
  | none => s

/-- Place the recipe extents of a draft in order, until one finds no place (R39, R75). -/
def placeExtents (i : SessionNo) : Nat → List DraftObject → State → List ExtentState × State
  | _, [], s => ([], s)
  | j, d :: ds, s =>
    let r := placeExtent (.closeExtent i j) (d.elems.map (·.id)) [] false s
    if r.1 = .failed then ([.failed], r.2)
    else
      let q := placeExtents i (j + 1) ds r.2
      (r.1 :: q.1, q.2)

/-- A close begins from OPEN (R75). A client with both 40 snapshots and last snapshot number FFFFFFFFH is answered BUSY:
R75 names both answers and no order (DESIGN CHOICE, log 39). -/
def beginClose (i : SessionNo) (h : ReqHdr) (s : State) : State :=
  match s.sessions.table[i] with
  | none => s
  | some x =>
    let client := (clientOf x.tag s).bind (fun c => s.sessions.clients[c])
    if x.draft.isEmpty then
      leaveTable i (answer h .ok (if isBackup x then beBytes 4 0 else []) false s)
    else if isBackup x ∧ client.any (fun k => decide (40 ≤ k.snapshots.length)) then answerSession i h .busy [] s
    else if isBackup x ∧ client.any (fun k => k.lastSnapshot = 0xFFFFFFFF) then answerSession i h .notPermitted [] s
    else
      let r := placeExtents i 0 x.draft s
      let cl : Closing :=
        { hdr := h, extents := r.1, failure := if r.1.any (· = .failed) then some .noSpace else none,
          turned := false, snapshot := 0, made := [] }
      checkClose i (setSession i (fun x => { x with state := .closing, closing := some cl })
        (noteChanges (extentParts i cl.extents) r.2))

/-- CLOSE_SESSION in a session (R75). -/
def closeSession (i : SessionNo) (h : ReqHdr) (x : Session) (s : State) : State :=
  if sessionTied x then answerSession i h .busy [] s
  else beginClose i h (if x.current.isSome then failObject i .noSession s else s)

/-- CLOSE_SESSION (R75). -/
def execCloseSession (h : ReqHdr) (s : State) : Host.Outcome State Fault Refusal :=
  .next (ownerWork (.closeSession h) (sessionRequest h (.closeSession h) (fun i x s => closeSession i h x s)) s)

/-- A WRITE of a close's extent ends (R39, R75). Of several extents that fail with different codes the first failure known
is the reply: R75 does not choose (DESIGN CHOICE, log 39). -/
def closeExtentEnded (i : SessionNo) (j : Nat) (good : Bool) (s : State) : State :=
  match s.sessions.table[i] with
  | some { closing := some cl, .. } =>
    match cl.extents[j]? with
    | none => s
    | some e =>
      let r := extentWriteEnded (.closeExtent i j) good e s
      let failure := if r.1 = .failed ∧ e ≠ .failed then cl.failure.orElse (fun _ => some .storeFailed) else cl.failure
      checkClose i (setSession i (fun x =>
        { x with closing := some { cl with extents := changeAt (fun _ => r.1) j cl.extents, failure := failure } })
        (noteChange (.draft i.val j) r.2))
  | _ => s

/-- A closed session leaves the table once its OK has joined the transmit queue (R77, R191). -/
def closedLeaves (i : SessionNo) (s : State) : State :=
  match s.sessions.table[i] with
  | some { closing := some _, .. } => leaveTable i s
  | _ => s

/-- The photos a close made, in the order of their origin seqs (R93). -/
def photosMade (cl : Closing) (s : State) : List Photo := cl.made.filterMap (fun p => s.catalog.photos[p]?)

/-- The announced seq rises to the highest origin seq of the photos made (R91, R94). -/
def raiseAnnounced (made : List Photo) (s : State) : State :=
  { s with catalog.announced := made.foldl (fun a p => max a p.seq) s.catalog.announced }

/-- The checkpoint covering a close has completed: for ALBUM the announced seq rises (R94); CLOSE_SESSION is answered OK, and
the session leaves (R77); the HOLDING frames follow (R94). -/
def closeCovered (i : SessionNo) (s : State) : State :=
  match s.sessions.table[i] with
  | some x =>
    match x.closing with
    | none => s
    | some cl =>
      if !cl.turned then s
      else
        let made := photosMade cl s
        let s :=
          transmitThen
            [replyFrameOf s cl.hdr .ok (if isBackup x then beBytes 4 cl.snapshot.toNat else []) false]
            (.left i) (closedLeaves i) (raiseAnnounced made s)
        if made.isEmpty then s else announcePhotos (made.map summaryFor) s
  | none => s

/-- What a producer does once its frames have joined the transmit queue (R61, R77, R106, R191): an answer's SESSION_IDLE
starts, as long as its session has not left the table and serves no request taken since; a BUSY answered in FINISHING starts
it while its END_OBJECT is still being served (log 25). -/
def doDeed (d : Deed) (s : State) : State :=
  match d with
  | .idle i opening serving =>
    match s.sessions.table[i] with
    | some x =>
      if s.sessions.openings[i] = opening ∧ x.entering.isNone ∧ (x.ending.isNone ∨ x.ending = serving) then idleAgain i s
      else s
    | none => s
  | .left i => closedLeaves i s
  | .freed f => endFetch f s

/-! ### Abandonment -/

/-- A session is given up (R78): object failed, draft dropped, reservations given back, entry emptied. -/
def abandon (i : SessionNo) (s : State) : State :=
  let s := failObject i .noSession s
  match s.sessions.table[i] with
  | none => s
  | some x =>
    let s := sendDrops .sessions (draftHeld x.draft) s
    let s :=
      if isBackup x then
        setClientOf x.tag (fun k => { k with reserved := k.reserved - (x.draft.map (·.length)).sum }) s
      else s
    leaveTable i (noteChanges (draftParts i x.draft) s)

/-- ABANDON_SESSION (R61, R78): taken at once, also while a SEGMENT is being entered; BUSY in CLOSING. -/
def execAbandonSession (h : ReqHdr) (s : State) : Host.Outcome State Fault Refusal :=
  .next (ownerWork (.abandonSession h) (fun s =>
    let s := takeRequest (.abandonSession h) s
    match sessionOf h.tag s with
    | none => refuse h .noSession s
    | some i =>
      match s.sessions.table[i] with
      | none => s
      | some x =>
        if x.state = .closing then answerSession i h .busy [] s else answer h .ok [] false (abandon i s)) s)

/-- SESSION_IDLE expiry (R79). R79 says that no request is waiting then; an expiry in FINISHING, which log 20 makes
possible, answers the waiting END_OBJECT NO_SESSION as R78 would (DESIGN CHOICE, log 39). -/
def execSessionIdleExpiry (i : SessionNo) (s : State) : Host.Outcome State Fault Refusal :=
  .next (ownerWork (.sessionIdleExpiry i) (fun s =>
    match takeExpiry (sessionIdleTimer i) .first s with
    | none => s
    | some s =>
      match s.sessions.table[i] with
      | some x => if x.state = .closing then s else abandon i s
      | none => s) s)

/-! ### Snapshots and restore reads -/

/-- The registered client a restore request comes from: none for a BOX and for a tag not registered (R81, R85). -/
def restoreClient (h : ReqHdr) (s : State) : Option (Fin 16 × Client) :=
  if h.box then none
  else
    match clientOf h.tag s with
    | none => none
    | some c => (s.sessions.clients[c]).map (fun k => (c, k))

/-- A snapshot of LIST_SNAPSHOTS (R85, R195). -/
def snapshotRecord (n : Snapshot) : List Byte :=
  beBytes 4 n.number.toNat ++ [boolByte n.retiring] ++ beBytes 6 n.logical ++ beBytes 4 n.objects.length

/-- LIST_SNAPSHOTS (R85). -/
def execListSnapshots (h : ReqHdr) (s : State) : Host.Outcome State Fault Refusal :=
  .next (ownerWork (.listSnapshots h) (fun s =>
    let s := takeRequest (.listSnapshots h) s
    match restoreClient h s with
    | none => refuse h .notPermitted s
    | some (_, k) =>
      answer h .ok
        (beBytes 6 k.quota ++ beBytes 6 k.used ++ beBytes 6 k.reserved ++ beBytes 1 k.retention ++
          beBytes 4 k.lastSnapshot.toNat ++ k.snapshots.flatMap snapshotRecord) false s) s)

/-- A restore read on a RETAINED snapshot of the sender (R85). -/
def onSnapshot (h : ReqHdr) (number : Word) (f : Snapshot → State → State) (s : State) : State :=
  match restoreClient h s with
  | none => refuse h .notPermitted s
  | some (_, k) =>
    match k.snapshots.find? (fun n => n.number = number) with
    | none => refuse h .notFound s
    | some n => if n.retiring then refuse h .notFound s else f n s

/-- An object record of LIST_OBJECTS (R85, R195). -/
def objectRecordBytes (o : ObjectRecord) : List Byte :=
  beBytes 8 o.id.toNat ++ beBytes 6 o.length ++ beBytes 4 o.chunks

/-- LIST_OBJECTS (R85). -/
def execListObjects (h : ReqHdr) (snapshot : Word) (first : Nat) (s : State) : Host.Outcome State Fault Refusal :=
  .next (ownerWork (.listObjects h snapshot first) (fun s =>
    onSnapshot h snapshot (fun n s =>
      let page := (n.objects.drop first).take 64
      answer h .ok (page.flatMap objectRecordBytes) (decide (first + page.length < n.objects.length) && !page.isEmpty) s)
      (takeRequest (.listObjects h snapshot first) s)) s)

/-- DROP_SNAPSHOT (R81). -/
def execDropSnapshot (h : ReqHdr) (snapshot : Word) (s : State) : Host.Outcome State Fault Refusal :=
  .next (ownerWork (.dropSnapshot h snapshot) (fun s =>
    let s := takeRequest (.dropSnapshot h snapshot) s
    match restoreClient h s with
    | none => refuse h .notPermitted s
    | some (c, k) =>
      match k.snapshots.find? (fun n => n.number = snapshot) with
      | none => refuse h .notFound s
      | some n => answer h .ok [] false (if n.retiring then s else makeRetiring c snapshot s)) s)

/-- GET_RECIPE in snapshot form (R85, R86). -/
def execGetRecipeSnapshot (h : ReqHdr) (snapshot : Word) (object : ObjectId) (first : Nat) (s : State) :
    Host.Outcome State Fault Refusal :=
  .next (ownerWork (.getRecipeSnapshot h snapshot object first) (fun s =>
    onSnapshot h snapshot (fun n s =>
      match n.objects.find? (fun o => o.id = object) with
      | none => refuse h .notFound s
      | some o =>
        match o.extent with
        | none => if first = 0 then answer h .ok [] false s else refuse h .badRequest s
        | some e =>
          if o.chunks ≤ first then refuse h .badRequest s
          else
            let take := min 64 (o.chunks - first)
            readRecipe h .restore e first take (.page take (decide (first + take < o.chunks)) []) s)
      (takeRequest (.getRecipeSnapshot h snapshot object first) s)) s)

/-- GET_CHUNK in snapshot form (R85, R87). -/
def execGetChunkSnapshot (h : ReqHdr) (snapshot : Word) (object : ObjectId) (index : Nat) (s : State) :
    Host.Outcome State Fault Refusal :=
  .next (ownerWork (.getChunkSnapshot h snapshot object index) (fun s =>
    onSnapshot h snapshot (fun n s =>
      match n.objects.find? (fun o => o.id = object) with
      | none => refuse h .notFound s
      | some o =>
        match o.extent with
        | none => refuse h .badRequest s
        | some e => if o.chunks ≤ index then refuse h .badRequest s else readRecipe h .restore e index 1 .chunk s)
      (takeRequest (.getChunkSnapshot h snapshot object index) s)) s)

/-- VREAD_ANSWER: DATA frames and REPLY OK, DAMAGED, BUSY, or what ABSENT gives by the form asked in (R87, R111, R113,
R190). -/
def execVreadAnswer (r : Reader) (o : VreadOutcome) (s : State) : Host.Outcome State Fault Refusal :=
  .next (ownerWork (.vreadAnswer r o) (fun s =>
    match o with
    | .good bytes => answerChunk r.hdr bytes s
    | .damaged => refuse r.hdr .damaged s
    | .busy => refuse r.hdr .busy s
    | .absent =>
      match r.form with
      | .restore => refuse r.hdr .notFound s
      | .album => refuse r.hdr .damaged s
      | .print => refuse r.hdr .notFound s) s)

end Sys2Proof.Machine
end

