-- ==== Sys2Proof/Machine/Verify.lean ====
section
/-! DEFINITION. The verify and repair unit: verified reads (R115 to R117), pending-read records and local repair (R118 to
R122), peer repair (R123, R124), re-mirroring (R125), scrubbing (R126 to R128), HUSH (R129, R130), and the grant of
chunk buffers (R12). -/

namespace Sys2Proof.Machine

/-! ### Small parts -/

/-- The open record of a chunk (R118). -/
def findRecord (id : ChunkId) (s : State) : Option RepairRecord := s.verify.records.find? (fun r => r.id = id)

/-- Change the open record of a chunk. -/
def setRecord (id : ChunkId) (f : RepairRecord → RepairRecord) (s : State) : State :=
  { s with verify.records := s.verify.records.map (fun r => if r.id = id then f r else r) }

/-- Answer a reader (spec/06, VREAD). -/
def answerReader (r : Reader) (o : VreadOutcome) (s : State) : State := post (.vreadAnswer r o) s

/-- Nothing of the unit's own is open or in flight (R130). -/
def verifyQuiet (s : State) : Bool := s.verify.records.isEmpty && s.verify.job.isNone && s.verify.readsOut = 0

/-- Answer QUIET when it is owed and nothing is in flight (R130). -/
def tellQuiet (s : State) : State :=
  if s.verify.quietDue ∧ verifyQuiet s then post .quiet { s with verify.quietDue := false } else s

/-- The good bytes of a READ, if it brought them: the first `length` bytes, matching the print (R116). -/
def goodBytes (id : ChunkId) (res : DiskResult) (data : ReadData) : Option (List Byte) :=
  match res, data with
  | .done, .bytes bs =>
    let b := bs.take id.length
    if b.length = id.length ∧ printOf b = id.print then some b else none
  | _, _ => none

/-- The disk of a copy is READY (R116, R128). -/
def copyReady (p : Place) (s : State) : Bool :=
  match slotOf p.member s with
  | some d => (s.ports.port[d]).spin = .ready
  | none => false

/-- The copy to read: not tried and not missing, READY before the rest, A before B (R116). -/
def chooseCopy (a b : Option Place) (tried : List CopySide) (s : State) : Option (CopySide × Place) :=
  let all := (a.toList.map (fun p => (CopySide.a, p))) ++ (b.toList.map (fun p => (CopySide.b, p)))
  let able := all.filter (fun c => !tried.contains c.1 && !missingCopy c.2 s)
  match able.find? (fun c => copyReady c.2 s) with
  | some c => some c
  | none => able.head?

/-- Offer a READ of a copy (R43, R116); the unit counts it as in flight. -/
def readCopy (r : Requester) (cls : ServiceClass) (id : ChunkId) (p : Place) (s : State) : State :=
  offerAt p.member { requester := r, cls := cls, op := .read p.first (copyBlocks id.length) }
    { s with verify.readsOut := s.verify.readsOut + 1 }

/-- A READ of the unit has ended. -/
def readDone (s : State) : State := { s with verify.readsOut := s.verify.readsOut - 1 }

/-- Open a record, when fewer than 16 are open (R115, R118). -/
def openRecord (id : ChunkId) (phase : RecordPhase) (hold : Bool) (waiters : List (Reader × ServiceClass))
    (bad : List CopySide) (s : State) : Option State :=
  if 16 ≤ s.verify.records.length then none
  else
    some { s with verify.records := s.verify.records ++
      [{ id := id, phase := phase, hold := hold, waiters := waiters, bad := bad, gone := [], tried := [],
         buffer := none, reading := false, settle := none }] }

/-- Answer every waiter of a record with one outcome (R118). -/
def answerWaiters (id : ChunkId) (o : VreadOutcome) (s : State) : State :=
  match findRecord id s with
  | none => s
  | some r =>
    setRecord id (fun r => { r with waiters := [] }) (r.waiters.foldl (fun s w => answerReader w.1 o s) s)

/-- Give back a record's buffer, or leave the pool's order (R118, R124). -/
def dropRecordBuffer (id : ChunkId) (s : State) : State :=
  match findRecord id s with
  | none => s
  | some r =>
    let s := leaveOrder (.record id) (setRecord id (fun r => { r with buffer := none }) s)
    match r.buffer with
    | some b => releaseBuffer b s
    | none => s

/-- Give back a record's hold (R118). -/
def dropRecordHold (id : ChunkId) (s : State) : State :=
  match findRecord id s with
  | none => s
  | some r => if r.hold then post (.readEnd id) (setRecord id (fun r => { r with hold := false }) s) else s

/-- May a record in the peer repair order start its conversation: with a waiter at any time, without one only while the
station is AWAKE and the unit is working (R123)? -/
def mayTalk (s : State) (id : ChunkId) : Bool :=
  (findRecord id s).any (fun r => !r.waiters.isEmpty) || (s.power.station = .awake && !s.verify.hushed)

/-- The record that begins the next conversation: the first of the order that may (R123). One held back does not hold back
those behind it, since a record with waiters starts in every state (R123, R130; log 34). -/
def nextTalk (s : State) : Option ChunkId := s.verify.order.find? (mayTalk s)

/-- Call for the next peer repair conversation when one can begin (R123). -/
def callPeer (s : State) : State :=
  if s.verify.talk.isNone ∧ (nextTalk s).isSome then post .peerRepairStart s else s

/-- Withdraw a record's peer repair: the conversation, or its place in the order; the next record then begins (R124). -/
def withdrawPeer (id : ChunkId) (s : State) : State :=
  let waiting := id ∈ s.verify.order
  let s := { s with verify.order := s.verify.order.filter (· ≠ id) }
  match s.verify.talk with
  | some t =>
    if t.id = id then callPeer (withdrawAsk .repair { s with verify.talk := none }) else s
  | none => if waiting then callPeer s else s

/-- Close a record: its hold and buffer go back, and its place is free (R118). -/
def closeRecord (id : ChunkId) (s : State) : State :=
  let s := dropRecordBuffer id (dropRecordHold id (withdrawPeer id s))
  { s with verify.records := s.verify.records.filter (fun r => r.id ≠ id) }

/-- The entry's state and mark as an index answer gives them. -/
def answeredState (a : IndexAnswer) : Option (EntryState × Bool) :=
  match a with
  | .found _ st mark _ _ => some (st, mark)
  | _ => none

/-- The copies an index answer gives. -/
def answeredCopies (a : IndexAnswer) : Option Place × Option Place :=
  match a with
  | .found _ _ _ pa pb => (pa, pb)
  | _ => (none, none)

/-! ### Peer repair -/

/-- A record enters phase PEER and joins the peer repair order (R120); hushed and without a waiter it closes instead
(R130, log 34). -/
def enterPeer (id : ChunkId) (s : State) : State :=
  match findRecord id s with
  | none => s
  | some r =>
    if s.verify.hushed ∧ r.waiters.isEmpty then closeRecord id s
    else
      callPeer
        { setRecord id (fun r => { r with phase := .peer, reading := false }) s with
          verify.order := s.verify.order ++ [id] }

/-- The candidates are used up (R123): a DOUBTFUL entry is condemned, the waiters get DAMAGED, the record closes. So it does
where a REVIVE has the entry WRITING by then, for which R123 has no line; R31 would let the waiters await the settle (DESIGN
CHOICE, log 43). -/
def peerExhausted (id : ChunkId) (s : State) : State :=
  onIndex (fun s =>
    let s := (condemn id s).2
    closeRecord id (answerWaiters id .damaged { s with verify.talk := none })) s

/-- Ask the candidates in turn, each still AWAKE; the record needs a buffer first (R123). -/
def askPeers (id : ChunkId) : List Tag → State → State
  | [], s => callPeer (peerExhausted id s)
  | t :: ts, s =>
    if heardOf t s ≠ some .awake then askPeers id ts s
    else
      match findRecord id s with
      | none => s
      | some r =>
        let got := match r.buffer with | some b => (some b, s) | none => requestBuffer (.record id) s
        match got.1 with
        | none => { got.2 with verify.talk := some { id := id, candidates := t :: ts, target := none } }
        | some b =>
          let s := setRecord id (fun r => { r with buffer := some b, tried := r.tried ++ [t] }) got.2
          sendAsk { asker := .repair, target := t, kind := .getChunk, payload := [0x02] ++ elementBytes id }
            { fillBuffer b [] s with verify.talk := some { id := id, candidates := ts, target := some t } }

/-- PEER_REPAIR_START (R123). -/
def startPeer (s : State) : State :=
  match s.verify.talk, nextTalk s with
  | none, some id =>
    let s := { s with verify.order := dropFirst (· = id) s.verify.order }
    match findRecord id s with
    | none => callPeer s
    | some r =>
      let list := (awakeBoxes s).filter (fun t => !r.tried.contains t)
      askPeers id list { s with verify.talk := some { id := id, candidates := list, target := none } }
  | _, _ => s

/-- The candidate's answer is not good: the bytes are discarded, and the next is asked (R123). -/
def nextPeer (s : State) : State :=
  match s.verify.talk with
  | none => s
  | some t => askPeers t.id t.candidates s

/-- A DATA frame reaches the peer repair conversation (R123). -/
def repairData (off : Nat) (bytes : List Byte) (s : State) : State :=
  match s.verify.talk with
  | none => s
  | some t =>
    match (findRecord t.id s).bind (·.buffer) with
    | none => s
    | some b =>
      let have0 := (s.engine.buffers[b]).bytes
      if off ≠ have0.length ∨ t.id.length < have0.length + bytes.length then nextPeer (withdrawAsk .repair s)
      else fillBuffer b (have0 ++ bytes) s

/-- Good bytes in a record's buffer: the waiters get them, and a RECOPY is sent (R119, R123). -/
def recopyFrom (id : ChunkId) (b : BufferNo) (bytes : List Byte) (p : RecopyPurpose) (s : State) : State :=
  let s := answerWaiters id (.good bytes) (fillBuffer b bytes s)
  post (.recopy { id := id, purpose := p, buffer := b, sender := .record })
    (setRecord id (fun r => { r with phase := .recopying, reading := false }) s)

/-- The closing REPLY of a peer, or TIMEOUT as none, reaches the conversation (R123). -/
def repairReply (code : Option Byte) (s : State) : State :=
  match s.verify.talk with
  | none => s
  | some t =>
    match (findRecord t.id s).bind (·.buffer) with
    | none => nextPeer s
    | some b =>
      let bytes := (s.engine.buffers[b]).bytes
      if code = some (codeByte .ok) ∧ bytes.length = t.id.length ∧ printOf bytes = t.id.print then
        callPeer (recopyFrom t.id b bytes .replaceAll { s with verify.talk := none })
      else nextPeer s

/-! ### Local repair -/

/-- An entry has no good local copy (R120); of an entry being written anew the record awaits the settle (R117, log 34). An
unmarked DOUBTFUL entry is condemned also where its copies are all missing and this record suspected none: R120 speaks of
that case as of a STORED entry, which gets no CONDEMN (DESIGN CHOICE, log 46). -/
def noGoodLocal (id : ChunkId) (s : State) : State :=
  onIndex (fun s =>
    let s := dropRecordBuffer id s
    match findEntry id s with
    | none => closeRecord id (answerWaiters id .absent s)
    | some (_, e) =>
      if e.state = .writing then
        dropRecordHold id (setRecord id (fun r => { r with phase := .settleWait, reading := false }) s)
      else if e.mark then enterPeer id s
      else closeRecord id (answerWaiters id .damaged (condemn id s).2)) s

/-- The next copy of a record to read: A then B, not bad, not gone, not missing (R119). A copy that has come in the place of a
bad one on its side counts as bad too and is passed over (DESIGN CHOICE, log 48). -/
def nextLocal (r : RepairRecord) (s : State) : Option (CopySide × Place) :=
  match findEntry r.id s with
  | none => none
  | some (_, e) =>
    let all := (e.copyA.toList.map (fun p => (CopySide.a, p))) ++ (e.copyB.toList.map (fun p => (CopySide.b, p)))
    all.find? (fun c => !r.bad.contains c.1 && !r.gone.contains c.1 && !missingCopy c.2 s)

/-- Repair from local copies: read the next one left into a buffer, or find none good (R119). -/
def repairLocal (id : ChunkId) (s : State) : State :=
  match findRecord id s with
  | none => s
  | some r =>
    match nextLocal r s with
    | none => noGoodLocal id s
    | some (side, p) =>
      let got := match r.buffer with | some b => (some b, s) | none => requestBuffer (.record id) s
      match got.1 with
      | none => setRecord id (fun r => { r with phase := .localCopy }) got.2
      | some b =>
        readCopy (.recordRead id side) .copying id p
          (setRecord id (fun r => { r with phase := .localCopy, buffer := some b, reading := true }) got.2)

/-- Open a record and repair from local copies; without a free record the hold goes back and the reader, if any, gets
BUSY (R115, R117, R125, R128). -/
def openLocal (id : ChunkId) (waiters : List (Reader × ServiceClass)) (bad : List CopySide) (s : State) : State :=
  match openRecord id .localCopy true waiters bad s with
  | some s => repairLocal id s
  | none => waiters.foldl (fun s w => answerReader w.1 .busy s) (post (.readEnd id) s)

/-- Open a record in phase PEER (R115, R116, R117, R127). -/
def openPeer (id : ChunkId) (hold : Bool) (waiters : List (Reader × ServiceClass)) (bad : List CopySide) (s : State) :
    State :=
  match openRecord id .peer hold waiters bad s with
  | some s => enterPeer id s
  | none =>
    waiters.foldl (fun s w => answerReader w.1 .busy s) (if hold then post (.readEnd id) s else s)

/-- Open a record that awaits a settle report (R115, R117). -/
def openSettle (id : ChunkId) (waiters : List (Reader × ServiceClass)) (s : State) : State :=
  match openRecord id .settleWait false waiters [] s with
  | some s => s
  | none => waiters.foldl (fun s w => answerReader w.1 .busy s) s

/-- A reader joins an open record (R115). -/
def joinRecord (r : RepairRecord) (w : Reader × ServiceClass) (s : State) : State :=
  if r.phase = .recopying then
    match r.buffer with
    | some b => answerReader w.1 (.good (s.engine.buffers[b]).bytes) s
    | none => answerReader w.1 .busy s
  else if 32 ≤ r.waiters.length then answerReader w.1 .busy s
  else
    let s := setRecord r.id (fun r => { r with waiters := r.waiters ++ [w] }) s
    if r.id ∈ s.verify.order then callPeer s else s

/-! ### The verified read -/

/-- Read a copy for a reader, or find none to read (R116). The mark that READ_BEGIN gave decides what comes of a reader with no
copy left, though a MARK may have come since: R116 does not say which mark counts (DESIGN CHOICE, log 48). Of a marked entry with none left R116 opens a record; where one of
the chunk is open already, the hold goes back and the reader joins that one, since there is one record for a chunk
(DESIGN CHOICE, log 34). -/
def readFor (job : VreadJob) (s : State) : State :=
  match chooseCopy job.copyA job.copyB job.tried s with
  | some (side, p) =>
    readCopy (.vread { job with side := side, tried := job.tried ++ [side] }) job.cls job.id p s
  | none =>
    if job.mark then
      match findRecord job.id s with
      | some r => joinRecord r (job.reader, job.cls) (post (.readEnd job.id) s)
      | none => openPeer job.id true [(job.reader, job.cls)] [.a, .b] s
    else answerReader job.reader .damaged (post (.readEnd job.id) s)

/-- VREAD (R115). -/
def vread (id : ChunkId) (cls : ServiceClass) (reader : Reader) (s : State) : State :=
  match findRecord id s with
  | some r => joinRecord r (reader, cls) s
  | none =>
    match readBegin id s with
    | (.busy, s) => answerReader reader .busy s
    | (.found _ .stored mark a b, s) =>
      readFor { id := id, cls := cls, reader := reader, copyA := a, copyB := b, mark := mark, side := .a, tried := [] } s
    | (.found _ .doubtful _ _ _, s) => openLocal id [(reader, cls)] [] s
    | (.found _ .writing _ _ _, s) => openSettle id [(reader, cls)] s
    | (.found _ .lost mark _ _, s) =>
      if mark then openPeer id false [(reader, cls)] [] s else answerReader reader .damaged s
    | (_, s) => answerReader reader .absent s

/-- After a SUSPECT for a reader's bad copy, by the index's answer (R117); a record already open is joined (log 34). The record
opened knows the bad copy by the side read, also where a new copy stands on that side by then (DESIGN CHOICE, log 48). -/
def afterSuspect (job : VreadJob) (s : State) : State :=
  let r := suspect job.id s
  let w := [(job.reader, job.cls)]
  match findRecord job.id r.2 with
  | some rec0 => joinRecord rec0 (job.reader, job.cls) (post (.readEnd job.id) r.2)
  | none =>
    match answeredState r.1 with
    | some (.doubtful, _) => openLocal job.id w [job.side] r.2
    | some (.stored, _) => openLocal job.id w [job.side] r.2
    | some (.writing, _) => openSettle job.id w (post (.readEnd job.id) r.2)
    | some (.lost, mark) =>
      if mark then openPeer job.id false w [] (post (.readEnd job.id) r.2)
      else answerReader job.reader .damaged (post (.readEnd job.id) r.2)
    | none => answerReader job.reader .absent (post (.readEnd job.id) r.2)

/-- A copy READ of a verified read ends (R116, R117). -/
def vreadReadEnded (job : VreadJob) (res : DiskResult) (data : ReadData) (s : State) : State :=
  let s := readDone s
  tellQuiet (match goodBytes job.id res data with
    | some bs => answerReader job.reader (.good bs) (post (.readEnd job.id) s)
    | none => if res = .diskFault then readFor job s else afterSuspect job s)

/-- VREAD (R115). -/
def execVread (id : ChunkId) (cls : ServiceClass) (reader : Reader) (s : State) : Host.Outcome State Fault Refusal :=
  .next (ownerWork (.vread id cls reader) (fun s => tellQuiet (vread id cls reader s)) s)

/-! ### Settle reports at a record -/

/-- The highest class among a record's waiters (R122). -/
def highestClass (r : RepairRecord) : ServiceClass :=
  if r.waiters.any (fun w => w.2 = .serve) then .serve else .copying

/-- A record reads a copy for its waiters, of those READ_BEGIN gave and not yet tried, or finds none to read (R116, R122). It is
in phase LOCAL meanwhile, for which R122 gives no phase, and with no copy left the mark READ_BEGIN gave decides, as for a reader
(DESIGN CHOICE, log 48). -/
def serveRecord (job : ServeJob) (s : State) : State :=
  match findRecord job.id s with
  | none => s
  | some r =>
    match chooseCopy job.copyA job.copyB job.tried s with
    | some (side, p) =>
      readCopy (.recordServe { job with side := side, tried := job.tried ++ [side] }) (highestClass r) job.id p
        (setRecord job.id (fun r => { r with phase := .localCopy, reading := true }) s)
    | none =>
      if job.mark then enterPeer job.id (setRecord job.id (fun r => { r with bad := [.a, .b] }) s)
      else closeRecord job.id (answerWaiters job.id .damaged s)

/-- A record acts on a settle report (R122). One that holds a hold already keeps it and takes the answer READ_BEGIN would
give (log 34); an entry WRITING again is awaited. By the time of that READ_BEGIN the entry of a STORED report may be LOST or
gone: R122 has no line for it, and the waiters get DAMAGED, of a marked entry too, or ABSENT, and the record closes (DESIGN
CHOICE, log 34). Nor has it one for DOUBTFUL, which is repaired from local copies with none known bad, or for BUSY, which the
waiters get as the record closes (DESIGN CHOICE, log 46). -/
def actOnSettle (id : ChunkId) (res : Settled) (s : State) : State :=
  let s := dropRecordBuffer id
    (setRecord id (fun r => { r with settle := none, bad := [], gone := [], reading := false }) s)
  match findRecord id s with
  | none => s
  | some r =>
    if res ≠ .stored then closeRecord id (answerWaiters id .damaged s)
    else if r.waiters.isEmpty then closeRecord id s
    else
      let began := if r.hold then (lookupAnswer id s, s) else readBegin id s
      match began with
      | (.busy, s) => closeRecord id (answerWaiters id .busy s)
      | (.found _ .stored mark a b, s) =>
        serveRecord { id := id, copyA := a, copyB := b, mark := mark, side := .a, tried := [] }
          (setRecord id (fun r => { r with hold := true }) s)
      | (.found _ .doubtful _ _ _, s) => repairLocal id (setRecord id (fun r => { r with hold := true }) s)
      | (.found _ .writing _ _ _, s) => dropRecordHold id (setRecord id (fun r => { r with phase := .settleWait }) s)
      | (.found _ .lost _ _ _, s) => closeRecord id (answerWaiters id .damaged s)
      | (_, s) => closeRecord id (answerWaiters id .absent s)

/-- A settle report reaches the open record of its chunk (R122). -/
def settleRecord (id : ChunkId) (res : Settled) (s : State) : State :=
  match findRecord id s with
  | none => s
  | some r =>
    match r.phase with
    | .settleWait => actOnSettle id res s
    | .localCopy =>
      if r.reading then setRecord id (fun r => { r with settle := some res }) s else actOnSettle id res s
    | .peer => actOnSettle id res (withdrawPeer id s)
    | .recopying => setRecord id (fun r => { r with settle := some res }) s

/-- VERIFY_SETTLE_REPORT (R122). -/
def execVerifySettleReport (id : ChunkId) (r : Settled) (s : State) : Host.Outcome State Fault Refusal :=
  .next (ownerWork (.verifySettleReport id r) (fun s => tellQuiet (settleRecord id r s)) s)

/-- REMOVAL_NOTICE: the waiters get ABSENT, and the record closes (R25, R122). -/
def execRemovalNotice (id : ChunkId) (s : State) : Host.Outcome State Fault Refusal :=
  .next (ownerWork (.removalNotice id) (fun s => tellQuiet (closeRecord id (answerWaiters id .absent s))) s)

/-- The outcome of a record's READ is discarded when a settle report has been seen; otherwise it is acted on (R122). -/
def unlessSettled (id : ChunkId) (f : State → State) (s : State) : State :=
  match (findRecord id s).bind (·.settle) with
  | some res => actOnSettle id res s
  | none => f (setRecord id (fun r => { r with reading := false }) s)

/-- The purpose of a RECOPY from a good local copy (R119). A DOUBTFUL entry met with no copy known bad, whose first copy read
bad before the second proved good, is taken as one with one copy bad, REPLACE of that copy; R119 names it under REPLACE ALL
too (DESIGN CHOICE, log 44). So is an entry whose other copy was read bad and is missing by now, its disk FAULTED with that
failure: R119 gives REPLACE for a bad copy and REPLACE ALL for a missing one (DESIGN CHOICE, log 48). -/
def localPurpose (r : RepairRecord) (side : CopySide) : RecopyPurpose :=
  match side with
  | .a => if r.bad.contains .b then .replaceB else .replaceAll
  | .b => if r.bad.contains .a then .replaceA else .replaceAll

/-- A record's READ of a local copy ends (R119). -/
def recordReadEnded (id : ChunkId) (side : CopySide) (res : DiskResult) (data : ReadData) (s : State) : State :=
  tellQuiet (unlessSettled id (fun s =>
    match findRecord id s with
    | none => s
    | some r =>
      match goodBytes id res data, r.buffer with
      | some bs, some b => recopyFrom id b bs (localPurpose r side) s
      | _, _ =>
        if res = .diskFault then repairLocal id (setRecord id (fun r => { r with gone := r.gone ++ [side] }) s)
        else repairLocal id (setRecord id (fun r => { r with bad := r.bad ++ [side] }) (suspect id s).2))
    (readDone s))

/-- A record's READ for its waiters after a settle ends (R116, R117, R122). -/
def recordServeEnded (job : ServeJob) (res : DiskResult) (data : ReadData) (s : State) : State :=
  let id := job.id
  tellQuiet (unlessSettled id (fun s =>
    match goodBytes id res data with
    | some bs => closeRecord id (answerWaiters id (.good bs) s)
    | none =>
      if res = .diskFault then serveRecord job s
      else
        let r := suspect id s
        match answeredState r.1 with
        | some (.writing, _) => dropRecordHold id (setRecord id (fun r => { r with phase := .settleWait }) r.2)
        | some (.lost, mark) =>
          let s := dropRecordHold id r.2
          if mark then enterPeer id s else closeRecord id (answerWaiters id .damaged s)
        | some (_, _) => repairLocal id (setRecord id (fun r => { r with bad := [job.side] }) r.2)
        | none => closeRecord id (answerWaiters id .absent r.2))
    (readDone s))

/-! ### Re-mirroring -/

/-- The job ends, and the next item is called for (R125). -/
def endJob (s : State) : State :=
  let s := leaveOrder .job s
  callMirror (match s.verify.job with
    | some { buffer := some b, .. } => releaseBuffer b { s with verify.job := none }
    | _ => { s with verify.job := none })

/-- The job reads its source copy once it has a buffer (R125). -/
def readJob (b : BufferNo) (s : State) : State :=
  match s.verify.job with
  | none => s
  | some j =>
    readCopy (.remirrorRead j.id) .copying j.id j.source
      { s with verify.job := some { j with buffer := some b } }

/-- The work of a job by the entry's copies: purpose, source side and place (R125). -/
def mirrorWork (a b : Option Place) (s : State) : Option (RecopyPurpose × CopySide × Place) :=
  match a, b with
  | some pa, some pb =>
    if missingCopy pa s ∧ !missingCopy pb s then some (.replaceA, .b, pb)
    else if missingCopy pb s ∧ !missingCopy pa s then some (.replaceB, .a, pa)
    else none
  | some pa, none => if !missingCopy pa s ∧ 2 ≤ healthyMembers s then some (.addB, .a, pa) else none
  | _, _ => none

/-- The oldest item becomes the job (R125). -/
def startJob (id : ChunkId) (s : State) : State :=
  let r := readBegin id s
  match r.1 with
  | .found _ .stored mark a b =>
    match if mark then mirrorWork a b s else none with
    | none => endJob (post (.readEnd id) r.2)
    | some (p, side, source) =>
      let s := { r.2 with verify.job := some { id := id, purpose := p, source := source, side := side, buffer := none } }
      match requestBuffer .job s with
      | (some buf, s) => readJob buf s
      | (none, s) => s
  | .found _ .doubtful _ _ _ => endJob (post (.readEnd id) r.2)
  | _ => endJob r.2

/-- REMIRROR_JOB_START (R125, R129). -/
def execRemirrorJobStart (s : State) : Host.Outcome State Fault Refusal :=
  .next (ownerWork .remirrorJobStart (fun s =>
    match s.verify.mirrors with
    | [] => s
    | id :: rest =>
      if s.power.station = .awake ∧ !s.verify.hushed ∧ s.verify.job.isNone then
        startJob id { s with verify.mirrors := rest }
      else s) s)

/-- After a SUSPECT without a reader: a record repairs the chunk with the hold taken, or the hold goes back (R125,
R128). -/
def repairUnread (id : ChunkId) (side : CopySide) (s : State) : State :=
  let r := suspect id s
  match findRecord id r.2, answeredState r.1 with
  | none, some (.doubtful, _) => openLocal id [] [side] r.2
  | _, _ => post (.readEnd id) r.2

/-- The job's source READ ends (R125). -/
def remirrorReadEnded (id : ChunkId) (res : DiskResult) (data : ReadData) (s : State) : State :=
  let s := readDone s
  tellQuiet (match s.verify.job with
    | none => s
    | some j =>
      if j.id ≠ id then s
      else
        match goodBytes id res data, j.buffer with
        | some bs, some b =>
          post (.recopy { id := id, purpose := j.purpose, buffer := b, sender := .job })
            (post (.readEnd id) (fillBuffer b bs s))
        | _, _ =>
          if res = .diskFault then endJob (post (.readEnd id) s) else endJob (repairUnread id j.side s))

/-- RECOPY_ANSWER: the record closes, or the job ends (R121, R125); the index releases the buffer (R33). -/
def recopyAnswered (sender : RecopySender) (id : ChunkId) (buffer : BufferNo) (r : RecopyResult) (s : State) : State :=
  match sender with
  | .record =>
    match findRecord id s with
    | none => s
    | some rec0 =>
      if rec0.buffer = some buffer ∧ rec0.phase = .recopying then
        let s := closeRecord id s
        match findEntry id s with
        | some (_, e) => if r = .unmirrored ∧ e.mark then queueMirror id s else s
        | none => s
      else s
  | .job =>
    match s.verify.job with
    | some j => if j.id = id ∧ j.buffer = some buffer then endJob s else s
    | none => s

/-- RECOPY_ANSWER (R121, R125). -/
def execRecopyAnswer (sender : RecopySender) (id : ChunkId) (buffer : BufferNo) (r : RecopyResult) (s : State) :
    Host.Outcome State Fault Refusal :=
  .next (ownerWork (.recopyAnswer sender id buffer r) (fun s => tellQuiet (recopyAnswered sender id buffer r s)) s)

/-- PEER_REPAIR_START (R123). -/
def execPeerRepairStart (s : State) : Host.Outcome State Fault Refusal :=
  .next (ownerWork .peerRepairStart (fun s => tellQuiet (startPeer s)) s)

/-! ### Scrubbing -/

/-- The position after a scrub position (R126). -/
def nextPosition (p : Nat) (s : State) : Nat := if s.index.capacity + 65535 ≤ p then 0 else p + 1

/-- The position in hand is done (R126); the cursor's page is copied first where it has to be (R136). -/
def positionDone (s : State) : State :=
  noteChange .scrub
    { s with verify.cursor := nextPosition s.verify.cursor s,
             verify.pass := s.verify.pass.map (fun p => { left := p.left - 1, id := none, todo := [] }) }

/-- The tests on a STORED marked entry before any read (R127): what joins the re-mirror list. -/
def scrubMirror (e : Entry) (s : State) : State :=
  let missing (c : Option Place) : Bool := c.any (fun p => missingCopy p s)
  let sound (c : Option Place) : Bool := c.any (fun p => !missingCopy p s)
  if (missing e.copyA && sound e.copyB) || (missing e.copyB && sound e.copyA) ||
      (e.copyB.isNone && sound e.copyA && 2 ≤ healthyMembers s) then queueMirror e.id s
  else s

/-- Every copy of an entry is missing (R127). An entry whose only copy is missing counts with those that have both missing:
R127 names one missing with the other not, and both (DESIGN CHOICE, log 40). -/
def allMissing (e : Entry) (s : State) : Bool := (copiesOf e).all (fun p => missingCopy p s)

/-- Read the next copy in hand that stands on a READY disk (R128); none if nothing is left to read. -/
def scrubRead (e : Entry) : List CopySide → State → Option State
  | [], _ => none
  | side :: rest, s =>
    match if side = .a then e.copyA else e.copyB with
    | none => scrubRead e rest s
    | some p =>
      if missingCopy p s ∨ !copyReady p s then scrubRead e rest s
      else
        let r := readBegin e.id s
        match r.1 with
        | .found _ .stored _ _ _ =>
          some (readCopy (.scrubRead e.id side) .scrub e.id p
            { r.2 with verify.scrubOut := true,
                       verify.pass := r.2.verify.pass.map (fun q => { q with id := some e.id, todo := rest }) })
        | .found _ .doubtful _ _ _ =>
          some (readCopy (.scrubRead e.id side) .scrub e.id p
            { r.2 with verify.scrubOut := true,
                       verify.pass := r.2.verify.pass.map (fun q => { q with id := some e.id, todo := rest }) })
        | _ => scrubRead e rest s

/-- What a pass does at a marked entry before reading (R127). Where the chunk has a record open already, R127 says that only
the position of a DOUBTFUL entry is done; here no second record is opened for a LOST entry, or for a STORED one with every
copy missing, either (DESIGN CHOICE, log 42). -/
def scrubEntry (e : Entry) (s : State) : State :=
  let open0 := (findRecord e.id s).isSome
  match e.state with
  | .writing => s
  | .doubtful =>
    if open0 ∨ 16 ≤ s.verify.records.length then s
    else
      match readBegin e.id s with
      | (.found .., s) => openLocal e.id [] [] s
      | (_, s) => s
  | .lost => if open0 then s else openPeer e.id false [] [] s
  | .stored =>
    if allMissing e s then if open0 then s else openPeer e.id false [] [.a, .b] s
    else scrubMirror e s

/-- A pass goes on, position by position, until a READ is outstanding or it ends (R126 to R128). -/
def scrubOn : Nat → State → State
  | 0, s => s
  | fuel + 1, s =>
    match s.verify.pass with
    | none => s
    | some p =>
      if p.left = 0 then { s with verify.pass := none }
      else
        match entryAt s.verify.cursor s with
        | none => scrubOn fuel (positionDone s)
        | some e =>
          if !e.mark then scrubOn fuel (positionDone s)
          else
            match p.id with
            | some id =>
              if id = e.id then
                match scrubRead e p.todo s with
                | some s => s
                | none => scrubOn fuel (positionDone s)
              else scrubOn fuel (positionDone s)
            | none =>
              let read := e.state = .stored ∧ !allMissing e s
              let s := scrubEntry e s
              match if read then scrubRead e [.a, .b] s else none with
              | some s => s
              | none => scrubOn fuel (positionDone s)

/-- SCRUB expiry: a pass of 256 positions begins (R126). Where the READ of a pass that HUSH ended is still out, the pass
takes its first position at that READ's end, since one scrub READ is outstanding at a time (R128). -/
def execScrubExpiry (s : State) : Host.Outcome State Fault Refusal :=
  .next (ownerWork .scrubExpiry (fun s =>
    match takeExpiry scrubTimer .first s with
    | none => s
    | some s =>
      if s.power.station = .awake ∧ !s.verify.hushed ∧ s.verify.pass.isNone then
        let s := { s with verify.pass := some { left := 256, id := none, todo := [] } }
        if s.verify.scrubOut then s else scrubOn 257 s
      else s) s)

/-- A scrub READ ends (R128), and the pass goes on. -/
def scrubReadEnded (id : ChunkId) (side : CopySide) (res : DiskResult) (data : ReadData) (s : State) : State :=
  let s := { readDone s with verify.scrubOut := false }
  let s :=
    match goodBytes id res data with
    | some _ => post (.readEnd id) s
    | none =>
      match res with
      | .skipped => post (.readEnd id) s
      | .diskFault => queueMirror id (post (.readEnd id) s)
      | .done => repairUnread id side s
      | .failed => repairUnread id side s
  tellQuiet (scrubOn 257 s)

/-! ### HUSH -/

/-- The records with no waiter in phase PEER close (R130). -/
def closeWaiterless (s : State) : State :=
  (s.verify.records.filter (fun r => r.phase = .peer && r.waiters.isEmpty)).foldl (fun s r => closeRecord r.id s) s

/-- HUSH (R130). -/
def execHush (s : State) : Host.Outcome State Fault Refusal :=
  .next (ownerWork .hush (fun s =>
    tellQuiet { closeWaiterless { s with verify.hushed := true, verify.pass := none } with verify.quietDue := true }) s)

/-- UNHUSH (R130): the unit works again. -/
def execUnhush (s : State) : Host.Outcome State Fault Refusal :=
  .next (ownerWork .unhush (fun s =>
    callPeer (callMirror { s with verify.hushed := false, verify.quietDue := false })) s)

/-! ### The grant of a chunk buffer -/

/-- A waiter resumes with the buffer it is lent (R12, R13, R105, R119, R123, R125). -/
def resumeWith (who : Borrower) (b : BufferNo) (s : State) : State :=
  match who with
  | .context i =>
    let rest := (s.engine.ctx[i]).remainder
    enterBytes i rest (setCtx i (fun c => { c with state := .cutting, buffer := some b, remainder := [] }) s)
  | .fetch f => askChunk f b s
  | .record id =>
    let s := setRecord id (fun r => { r with buffer := some b }) s
    match s.verify.talk with
    | some t => if t.id = id then askPeers id t.candidates s else repairLocal id s
    | none => repairLocal id s
  | .job => readJob b s
  | .index => s

/-- BUFFER_GRANT: a released buffer is lent to the oldest waiter, or is free when none is left (R12). In HALTED, where R162
does not name the pool, the buffer stays released and no waiter resumes (DESIGN CHOICE, log 42). -/
def execBufferGrant (b : BufferNo) (s : State) : Host.Outcome State Fault Refusal :=
  .next (ownerWork (.bufferGrant b) (fun s =>
    if (s.engine.buffers[b]).state ≠ .granting then s
    else
      match s.engine.order with
      | [] => { s with engine.buffers := put s.engine.buffers b { state := .free, bytes := [] } }
      | who :: rest => tellQuiet (resumeWith who b (lendBuffer b who { s with engine.order := rest }))) s)

end Sys2Proof.Machine
end

