-- ==== Sys2Proof/Machine/Checkpoint.lean ====
section
/-! DEFINITION. The checkpoint unit: requests and closers (R134), the fence and the capture point (R135), the image form
(R131, R132), pages and members (R136, R137), completion (R138), and PARK_SAVE (R139). -/

namespace Sys2Proof.Machine

/-! ### Starting -/

/-- A checkpoint begins: FENCING, the next closers move in, the mark clears, and HOLD goes to the index (R135). -/
def startCheckpoint (s : State) : State :=
  post .hold
    { s with ckpt.state := .fencing,
             ckpt.current := some { generation := s.ckpt.generation, image := none, members := [],
                                    closers := s.ckpt.nextClosers },
             ckpt.nextClosers := [], ckpt.pendingMark := false }

/-- A checkpoint is requested, with or without a closer (R134). -/
def requestCheckpoint (closer : Option Closer) (s : State) : State :=
  match s.ckpt.state with
  | .halted => s
  | .idle => startCheckpoint { s with ckpt.nextClosers := s.ckpt.nextClosers ++ closer.toList }
  | .fencing => { s with ckpt.nextClosers := s.ckpt.nextClosers ++ closer.toList, ckpt.pendingMark := true }
  | .writing => { s with ckpt.nextClosers := s.ckpt.nextClosers ++ closer.toList, ckpt.pendingMark := true }

/-- PARK_SAVE's three conditions (R139). -/
def saveLevel (s : State) : Bool :=
  s.ckpt.state = .idle && !s.ckpt.changed && s.verify.cursor = s.ckpt.capturedCursor

/-- Answer SAVED where the image is level, else request a checkpoint with the power unit as closer (R139). -/
def testSave (s : State) : State := if saveLevel s then post .saved s else requestCheckpoint (some .power) s

/-! ### The image -/

/-- An index entry in image form (R132): WRITING with no copies for a MISS; as before the revive, with its old copies, for a
REVIVE; no working part. -/
def imageEntry (e : Entry) : ImageEntry :=
  let form := fun (st : EntryState) (a b : Option Place) =>
    ({ id := e.id, state := st, mark := e.mark, count := e.count, copyA := a, copyB := b } : ImageEntry)
  match e.write with
  | none => form e.state e.copyA e.copyB
  | some w =>
    match w.prior with
    | none => form .writing none none
    | some st => form st w.oldA w.oldB

/-- An element of an object in image form: a held reference stands as one standing (R132). -/
def imageElem (e : ObjElem) : ObjElem := { e with standing := if e.standing = .waiting then .settled else e.standing }

/-- An element of a fetch in image form (R132). -/
def imageFetchElem (e : FetchElem) : FetchElem :=
  { e with standing := if e.standing = .waiting then .settled else e.standing }

/-- A session in image form (R131, R132): its object and its draft with the elements' standings, and no catalog
reservation; the requests being answered are no part of the store. -/
def imageSession (x : Session) : Session :=
  { x with current := x.current.map (fun o => { o with elems := o.elems.map imageElem }),
           draft := x.draft.map (fun d => { d with elems := d.elems.map imageElem }),
           reservations := 0, entering := none, ending := none }

/-- A fetch in image form (R131, R132). -/
def imageFetch (x : Fetch) : Fetch := { x with elems := x.elems.map imageFetchElem, buffer := none }

/-- The member table as the image saves it: numbers, and whether each member is PRESENT (R34). -/
def memberStates (s : State) : List (Option (Nat × Bool)) :=
  s.alloc.members.toList.map (fun m => m.map (fun m => (m.number, m.map.isSome)))

/-- The image of the store as it stands (R131, R132). -/
def imageForm (s : State) : Image :=
  { capacity := s.index.capacity,
    entries := s.index.entries.map (fun e => (e.1, imageEntry e.2)),
    members := memberStates s,
    store := s.alloc.store, highest := s.alloc.highest,
    clients := s.sessions.clients.toList,
    sessions := s.sessions.table.toList.map (fun x => x.map imageSession), retire := s.sessions.retire,
    titles := s.catalog.titles.toList, photos := s.catalog.photos, origins := s.catalog.origins,
    ownCounter := s.catalog.ownCounter, fetches := s.catalog.fetches.toList.map (fun x => x.map imageFetch),
    scrubCursor := s.verify.cursor }

/-! ### Writing to the members -/

/-- The root block of a half (R35, R133). -/
def rootBlock (half : Bool) : Nat := if half then 786433 else 1

/-- The half a checkpoint writes on a slot's member: the inactive one, half 0 where it has no generation (R133). -/
def inactiveHalf (d : DiskPort) (s : State) : Bool :=
  match s.ckpt.memberGen[d] with
  | none => false
  | some (_, half) => !half

/-- The root a checkpoint writes on a member (R133); the root CRC is free (log 8). -/
def rootFor (generation : Word) (image : Image) (number : Nat) : Root :=
  let r : Root :=
    { marker := true, store := image.store, member := number, generation := generation, capacity := image.capacity,
      pageCount := imagePages image.capacity, imageCrc := Config.imageCrc image, rootCrc := 0 }
  { r with rootCrc := Config.rootCrc r }

/-- A member's record in the current checkpoint (R137). -/
def ckptMember (d : DiskPort) (s : State) : Option CkptMember :=
  s.ckpt.current.bind (fun c => (c.members[d.val]?).join)

/-- Change a member's record in the current checkpoint. -/
def setCkptMember (d : DiskPort) (f : CkptMember → CkptMember) (s : State) : State :=
  { s with ckpt.current := s.ckpt.current.map (fun c =>
      { c with members := changeAt (fun m => m.map f) d.val c.members }) }

/-- Offer a checkpoint's command at META class (R137). -/
def offerCkpt (d : DiskPort) (r : Requester) (op : DiskOp) (s : State) : State :=
  post (.commandOffer d { requester := r, cls := .metadata, op := op }) s

/-- The generation the current checkpoint writes (R135). -/
def ckptGen (s : State) : Word := match s.ckpt.current with | some c => c.generation | none => s.ckpt.generation

/-- Offer page WRITEs in page order, at most 8 of them queued (R137). Each takes its pages as they stood at the capture
point, from a shadow copy or the live page (R136). -/
def offerPages (d : DiskPort) (image : Image) : Nat → State → State
  | 0, s => s
  | fuel + 1, s =>
    match ckptMember d s with
    | none => s
    | some m =>
      let n := min 256 (imagePages s.index.capacity - m.offered)
      if n = 0 ∨ 8 ≤ m.queued then s
      else
        offerPages d image fuel
          (offerCkpt d (.ckptPages (ckptGen s) n)
            (.write (rootBlock m.half + 1 + m.offered) n (.imagePages image m.offered n))
            (setCkptMember d (fun m => { m with offered := m.offered + n, queued := m.queued + 1 }) s))

/-- Has a member reached its end in this checkpoint (R137, R138)? -/
def ckptDone (m : Option CkptMember) : Bool :=
  match m with
  | none => true
  | some m => m.step = .succeeded || m.step = .failed

/-- Answer the closers of a completed checkpoint, oldest first (R138); the power unit's test follows once the unit is
IDLE (R139). -/
def answerClosers : List Closer → State → State
  | [], s => s
  | c :: cs, s =>
    answerClosers cs
      (match c with
        | .session i => closeCovered i s
        | .fetch f => fetchCovered f s
        | .power => s
        | .coldStart => if s.cold = .starting then enterAwake .coldStart { s with cold := .finished } else s)



/-- Each succeeded member's generation becomes the written one, with the half written (R138). -/
def newMemberGens (c : Checkpoint) (s : State) : Vector (Option (Word × Bool)) 4 :=
  Vector.ofFn (fun d : DiskPort =>
    match (c.members[d.val]?).join with
    | some m => if m.step = .succeeded then some (c.generation, m.half) else s.ckpt.memberGen[d]
    | none => s.ckpt.memberGen[d])

/-- Every member of the set is done (R138): closers are answered and the unit is IDLE, or the station halts. A checkpoint
marked pending starts before PARK_SAVE's test is made again, which the unit then does not pass: R138 and R139 give no order of
the two (DESIGN CHOICE, log 43). -/
def completeCheckpoint (c : Checkpoint) (s : State) : State :=
  let s := { s with ckpt.current := none, ckpt.shadow := [] }
  if c.members.any (fun m => m.any (fun m => m.step = .succeeded)) then
    let s := answerClosers c.closers
      { s with ckpt.generation := c.generation, ckpt.memberGen := newMemberGens c s }
    let s := { s with ckpt.state := .idle }
    let s := if s.ckpt.pendingMark then startCheckpoint s else s
    if .power ∈ c.closers then testSave s else s
  else enterHalted .checkpoint s

/-- A member has gone on: shadow copies of released pages are freed, and the checkpoint completes when every member is done
(R136, R138). -/
def ckptProgress (s : State) : State :=
  match s.ckpt.current with
  | none => s
  | some c =>
    if c.image.isNone then s
    else if c.members.all ckptDone then completeCheckpoint c s
    else { s with ckpt.shadow := s.ckpt.shadow.filter (fun p => !pageReleased c.members p) }

/-- The next command of a member whose last one ended DONE (R137). -/
def ckptNext (d : DiskPort) (m : CkptMember) (r : Requester) (s : State) : State :=
  match s.ckpt.current with
  | none => s
  | some c =>
    match r, c.image with
    | .ckptPages _ n, some image =>
      let s := setCkptMember d (fun m => { m with ended := m.ended + n, queued := m.queued - 1 }) s
      if imagePages s.index.capacity ≤ m.ended + n then
        offerCkpt d (.ckptFirstFlush c.generation) .flush (setCkptMember d (fun m => { m with step := .firstFlush }) s)
      else offerPages d image 8 s
    | .ckptFirstFlush _, some image =>
      offerCkpt d (.ckptRoot c.generation) (.write (rootBlock m.half) 1 (.root (rootFor c.generation image m.number)))
        (setCkptMember d (fun m => { m with step := .root }) s)
    | .ckptRoot _, _ =>
      offerCkpt d (.ckptLastFlush c.generation) .flush (setCkptMember d (fun m => { m with step := .lastFlush }) s)
    | .ckptLastFlush _, _ => setCkptMember d (fun m => { m with step := .succeeded }) s
    | _, _ => s

/-- Is a message an offer to this port of one of this checkpoint's commands? -/
def offersCkpt (d : DiskPort) (gen : Word) (w : Work) : Bool :=
  match w with
  | .cmd (.commandOffer e c) => e = d && checkpointOf c.requester = some gen
  | _ => false

/-- A member fails: the unit offers it nothing more, so what it keeps back for the port falls away (R48, R137), and so do the
offers that the port has not taken yet (DESIGN CHOICE, log 47); what stands in the queue and the offer line runs. -/
def failMember (d : DiskPort) (s : State) : State :=
  let s := { dropKept d (ckptGen s) s with mail := s.mail.filter (fun w => !offersCkpt d (ckptGen s) w) }
  setCkptMember d (fun m => { m with step := .failed }) s

/-- A checkpoint's command ends on a member (R137): the next one, or the member fails. Outcomes of a member that is done
and those of an earlier checkpoint's generation are discarded. -/
def ckptEnded (d : DiskPort) (gen : Word) (r : Requester) (res : DiskResult) (s : State) : State :=
  match ckptMember d s with
  | none => s
  | some m =>
    if ckptDone (some m) ∨ gen ≠ ckptGen s then s
    else
      ckptProgress
        (if res = .done then ckptNext d m r s else failMember d s)

/-- A port reports its disk FAULTED to the checkpoint unit (R52, R137). -/
def memberFault (d : DiskPort) (s : State) : State :=
  match ckptMember d s with
  | none => s
  | some m =>
    if ckptDone (some m) then s else ckptProgress (failMember d s)

/-! ### The capture point -/

/-- The member set: every PRESENT member whose disk is not FAULTED, each with its inactive half (R135). -/
def memberSet (s : State) : List (Option CkptMember) :=
  (List.finRange 4).map fun d =>
    match s.alloc.members[d] with
    | some { number := k, map := some _ } =>
      if (s.ports.port[d]).spin = .faulted then none
      else some { number := k, half := inactiveHalf d s, offered := 0, ended := 0, queued := 0, step := .pages }
    | _ => none

/-- The unit takes CAPTURED (R135): image, generation, CLEAN, captured cursor, member set; then the writing begins. -/
def captured (s : State) : State :=
  match s.ckpt.state, s.ckpt.current with
  | .fencing, some c =>
    let image := imageForm s
    let s :=
      { stopTimer checkpointTimer s with
        ckpt.state := .writing, ckpt.changed := false, ckpt.capturedCursor := s.verify.cursor,
        ckpt.current := some { c with generation := s.ckpt.generation + 1, image := some image,
                                      members := memberSet s } }
    ckptProgress ((List.finRange 4).foldl (fun s d => offerPages d image 8 s) s)
  | _, _ => s

/-- The index takes the claims it kept, in arrival order (R135). -/
def takeKept : List Claim → State → State
  | [], s => s
  | c :: cs, s => takeKept cs (asWork (.cmd (.claim c)) (takeClaim c) s)

/-- The capture point: RELEASE to both owners, CAPTURED to the unit, and the kept claims (R135). -/
def capturePoint (s : State) : State :=
  let kept := s.index.kept
  takeKept kept
    (captured
      (postAll [.fenceRelease .sessions, .fenceRelease .catalog]
        { s with ckpt.backs := [], index.holding := false, index.kept := [] }))

/-! ### Commands -/

/-- CHANGE_REPORT (R134, R136). -/
def execChangeReport (part : ImagePart) (s : State) : Host.Outcome State Fault Refusal :=
  .next (asWork (.cmd (.changeReport part)) (noteChange part) s)

/-- CHECKPOINT_REQUEST (R134). -/
def execCheckpointRequest (closer : Option Closer) (s : State) : Host.Outcome State Fault Refusal :=
  .next (requestCheckpoint closer s)

/-- CHECKPOINT expiry (R134). -/
def execCheckpointExpiry (s : State) : Host.Outcome State Fault Refusal :=
  .next (match takeExpiry checkpointTimer .first s with
    | none => s
    | some s => requestCheckpoint none s)

/-- HOLD: the index keeps its claims from now on, and sends FENCE to both owners (R135). -/
def execHold (s : State) : Host.Outcome State Fault Refusal :=
  .next (postAll [.fence .sessions, .fence .catalog] { s with index.holding := true, ckpt.backs := [] })

/-- The session manager has no MARK out: it answers at once (R135). -/
def fenceSessions (s : State) : State := post (.fenceBack .sessions) { s with sessions.fenced := true }

/-- The catalog answers when no MARK of its own is unanswered (R135; log 28). -/
def fenceCatalog (s : State) : State :=
  if s.catalog.marksOut = 0 then post (.fenceBack .catalog) { s with catalog.fenced := true }
  else { s with catalog.fenceDue := true }

/-- FENCE (R135). -/
def execFence (o : FenceOwner) (s : State) : Host.Outcome State Fault Refusal :=
  .next (unlessHalted (fun s =>
    match o with
    | .sessions => fenceSessions s
    | .catalog => fenceCatalog s) s)

/-- FENCE_BACK: with the second one the capture point falls (R135). -/
def execFenceBack (o : FenceOwner) (s : State) : Host.Outcome State Fault Refusal :=
  .next (if !s.index.holding ∨ o ∈ s.ckpt.backs then s
    else
      let s := { s with ckpt.backs := s.ckpt.backs ++ [o] }
      if s.ckpt.backs.length = 2 then capturePoint s else s)

/-- RELEASE: the owner's work that waited goes on, in the order it came and before what has come since (R135; log 6). -/
def execFenceRelease (o : FenceOwner) (s : State) : Host.Outcome State Fault Refusal :=
  .next (
    let s : State :=
      match o with
      | .sessions => { s with sessions.fenced := false }
      | .catalog => { s with catalog.fenced := false, catalog.fenceDue := false }
    { s with mail := s.fenceWaiting ++ s.mail, fenceWaiting := [] })

/-- PARK_SAVE (R139). -/
def execParkSave (s : State) : Host.Outcome State Fault Refusal := .next (testSave s)

/-- The power unit withdraws its PARK_SAVE: it leaves whichever closer list holds it (R139). -/
def execParkSaveWithdraw (s : State) : Host.Outcome State Fault Refusal :=
  .next { s with ckpt.nextClosers := s.ckpt.nextClosers.filter (· ≠ .power),
                 ckpt.current := s.ckpt.current.map (fun c => { c with closers := c.closers.filter (· ≠ .power) }) }

end Sys2Proof.Machine
end

