-- ==== Sys2Proof/Machine/Report.lean ====
section
/-! DEFINITION. The configuration and report block: validity and clamps (R196, R197), SET_CONFIG (R199), the station report
(R200) and CLEAR_FLAGS (R201). -/

namespace Sys2Proof.Machine

/-! ### The configuration block -/

/-- Is a block valid (R196)? -/
def blockValid (bs : List Byte) : Bool :=
  bs.length = 48 && crc32 (bs.take 44) = BitVec.ofNat 32 (fieldAt bs 44 4) && fieldAt bs 6 2 ≠ 0 &&
    fieldAt bs 6 2 ≠ 65535 && fieldAt bs 2 4 ≠ 0

/-- The nearest value within bounds (R197). -/
def clampTo (lo hi n : Nat) : Nat := max lo (min hi n)

/-- The group bit of a MAC cleared: the least significant bit of its first byte (R197). -/
def clearGroup (m : Mac) : Mac := m &&& 0xFEFFFFFFFFFF

/-- The values in force from a valid block, after the clamps (R1, R2, R197). -/
def confOf (bs : List Byte) : Conf :=
  let seed : Word := BitVec.ofNat 32 (fieldAt bs 20 4)
  { frameType := BitVec.ofNat 16 (max 0x600 (fieldAt bs 0 2)),
    family := BitVec.ofNat 32 (fieldAt bs 2 4),
    tag := BitVec.ofNat 16 (fieldAt bs 6 2),
    mac := clearGroup (BitVec.ofNat 48 (fieldAt bs 8 6)),
    chunkClass := min 3 (fieldAt bs 14 1),
    target := clampTo 1 4 (fieldAt bs 15 1),
    multiplier := BitVec.ofNat 32 (fieldAt bs 16 4) ||| 1,
    seed := if seed = 0 then 0x4B1D29C3 else seed,
    sleepDelay := clampTo 60 7200 (fieldAt bs 24 2),
    diskIdle := clampTo 60 3600 (fieldAt bs 26 2),
    sessionIdle := clampTo 30 600 (fieldAt bs 28 2),
    dozeSpread := clampTo 30 600 (fieldAt bs 30 2),
    presencePeriod := clampTo 10 120 (fieldAt bs 32 1),
    retention := clampTo 1 32 (fieldAt bs 33 1),
    quota := fieldAt bs 34 6,
    allowLastSleeper := fieldAt bs 40 1 ≠ 0,
    wakeReady := fieldAt bs 41 1 ≠ 0,
    stabChoice := min 2 (fieldAt bs 42 1),
    spinLimit := clampTo 1 2 (fieldAt bs 43 1) }

/-- Bytes 0..43 of the block that spells these values (R195). -/
def confBytes (c : Conf) : List Byte :=
  beBytes 2 c.frameType.toNat ++ beBytes 4 c.family.toNat ++ beBytes 2 c.tag.toNat ++ beBytes 6 c.mac.toNat ++
    beBytes 1 c.chunkClass ++ beBytes 1 c.target ++ beBytes 4 c.multiplier.toNat ++ beBytes 4 c.seed.toNat ++
    beBytes 2 c.sleepDelay ++ beBytes 2 c.diskIdle ++ beBytes 2 c.sessionIdle ++ beBytes 2 c.dozeSpread ++
    beBytes 1 c.presencePeriod ++ beBytes 1 c.retention ++ beBytes 6 c.quota ++ [boolByte c.allowLastSleeper] ++
    [boolByte c.wakeReady] ++ beBytes 1 c.stabChoice ++ beBytes 1 c.spinLimit

/-- Does some clamp change the block (R196)? -/
def blockClamped (bs : List Byte) : Bool := confBytes (confOf bs) ≠ bs.take 44

/-- The fields with a mask bit, by rising bit number: offset, bytes, default (R195, R197). -/
def maskedFields : List (Nat × Nat × Nat) :=
  [(14, 1, 1), (15, 1, 2), (16, 4, 0x2F019A3D), (20, 4, 0x4B1D29C3), (24, 2, 900), (26, 2, 600), (28, 2, 120),
   (30, 2, 120), (32, 1, 30), (33, 1, 8), (34, 6, 0), (40, 1, 0), (41, 1, 0), (42, 1, 1), (43, 1, 1)]

/-- Put the defaults of the masked fields into bytes 0..43, from mask bit `n` on (R199). -/
def applyDefaults (mask : Word) : Nat → List (Nat × Nat × Nat) → List Byte → List Byte
  | _, [], bs => bs
  | n, (off, len, dflt) :: rest, bs =>
    applyDefaults mask (n + 1) rest
      (if mask.getLsbD n then bs.take off ++ beBytes len dflt ++ bs.drop (off + len) else bs)

/-- The 48 bytes SET_CONFIG writes (R199). -/
def formBlock (sent : List Byte) (mask : Word) : List Byte :=
  let bs := applyDefaults mask 0 maskedFields sent
  bs ++ beBytes 4 (crc32 bs).toNat

/-! ### The report -/

/-- A spin state's code (R200). -/
def spinCode (x : SpinState) : Byte :=
  match x with
  | .absent => 0
  | .standby => 1
  | .spinup => 2
  | .ready => 3
  | .faulted => 4

/-- A port's six bytes: spin state, member number, free blocks (R59, R200). -/
def portBytes (d : DiskPort) (s : State) : List Byte :=
  [spinCode (s.ports.port[d]).spin] ++
    beBytes 1 (match s.alloc.members[d] with | some m => m.number | none => 0) ++ beBytes 4 (freeOf d s)

/-- Bytes 0..43 of the flash as the last cold start read them; a flash that did not answer shows free values
(R198, log 26). -/
def flashShown (s : State) : List Byte :=
  (List.range 44).map (fun i => s.report.asRead.getD i (Config.unreadFlashByte (s.freeIx + i)))

/-- The report body of QUERY_STATION, 104 bytes (R200, R198), with the values as they stand when it is composed; in HALTED too,
where the seconds, the ports and the index go on (R162) and R200 says both that and "what stood at the halt" (DESIGN CHOICE,
log 41). -/
def reportBytes (s : State) : List Byte :=
  let unconf := s.power.station = .unconfigured
  [stationCode s.power.station, if unconf then 0 else s.report.flags, haltCode s.report.halt,
    match s.power.tickSource with | .sxt => 0 | .fallback => 1] ++
    beBytes 4 s.now.toNat ++ beBytes 4 s.ckpt.generation.toNat ++
    (List.finRange 4).flatMap (fun d => portBytes d s) ++
    beBytes 1 (s.sessions.table.toList.filter (·.isSome)).length ++
    beBytes 1 (s.sessions.clients.toList.filter (·.isSome)).length ++
    beBytes 4 (s.index.entries.filter (fun e => e.1 < s.index.capacity)).length ++
    beBytes 4 (s.index.entries.filter (fun e => s.index.capacity ≤ e.1)).length ++
    beBytes 4 s.index.capacity ++ beBytes 4 s.catalog.photos.length ++ beBytes 2 s.catalog.wanted.length ++
    beBytes 4 (lostCount s) ++ (if unconf then flashShown s else confBytes s.conf)

/-- The result code of a report, by the station state (R200). -/
def reportCode (x : StationState) : Code :=
  match x with
  | .unconfigured => .unconfigured
  | .halted => .halted
  | .coldStart => .busy
  | .awake => .ok
  | .dozing => .ok
  | .parking => .ok
  | .asleep => .ok
  | .waking => .ok

/-- QUERY_STATION (R200). -/
def execQueryStation (h : ReqHdr) (s : State) : Host.Outcome State Fault Refusal :=
  .next (
    let s := takeRequest (.queryStation h) s
    if s.power.station = .coldStart then answerReport h .busy [] s
    else answerReport h (reportCode s.power.station) (reportBytes s) s)

/-- The flags a CLEAR_FLAGS clears: in HALTED the HALT_REASON bit is passed over (R201). -/
def clearedBits (mask : Byte) (s : State) : Byte :=
  if s.power.station = .halted then mask &&& ~~~(flagBit .haltReason) else mask

/-- CLEAR_FLAGS (R201). -/
def execClearFlags (h : ReqHdr) (mask : Byte) (s : State) : Host.Outcome State Fault Refusal :=
  .next (
    let s := takeRequest (.clearFlags h mask) s
    let s := { s with report.flags := s.report.flags &&& ~~~(clearedBits mask s) }
    answerReport h (if s.power.station = .halted then .halted else .ok) [s.report.flags] s)

/-- SET_CONFIG (R199): the block formed goes to the flash; SET_CONFIG_WRITE_DONE brings what was read back. One taken between
the OK of an earlier one and that frame's leaving is written too, unless the cold start comes first (DESIGN CHOICE, log 42).
One with a tag or a family that BAD_REQUEST answers, while an earlier one is being written, is answered BUSY: R199 orders the
two answers not at all (DESIGN CHOICE, log 48). -/
def execSetConfig (h : ReqHdr) (block : List Byte) (mask : Word) (s : State) : Host.Outcome State Fault Refusal :=
  .next (
    let s := takeRequest (.setConfig h block mask) s
    if s.power.station ≠ .unconfigured then answerReport h .notPermitted [] s
    else if s.report.writing.isSome then answerReport h .busy [] s
    else if fieldAt block 6 2 = 0 ∨ fieldAt block 6 2 = 65535 ∨ fieldAt block 2 4 = 0 then
      answerReport h .badRequest [] s
    else { s with report.writing := some (h, formBlock block mask) })

/-- SET_CONFIG_WRITE_DONE (R199): OK with the read-back equal, and its frame's leaving starts a cold start; else
STORE_FAILED. -/
def execSetConfigWriteDone (readBack : Option (List Byte)) (s : State) : Host.Outcome State Fault Refusal :=
  .next (match s.report.writing with
    | none => s
    | some (h, block) =>
      let s := { s with report.writing := none, flash := readBack }
      if readBack = some block then
        { s with link := handOn none true [{ replyFrameOf s h .ok [] false with restart := true }] s.link }
      else answerReport h .storeFailed [] s)

end Sys2Proof.Machine
end

