-- ==== Sys2Proof/Machine/ColdStart.lean ====
section
/-! DEFINITION. Cold start (R140 to R143): configuration and DRAM, roots and images, matching of members (R34), the block
maps (R36), and making the store whole, with the catalog's start (R114). -/

namespace Sys2Proof.Machine

/-! ### Configuration, DRAM and start values -/

/-- The index capacity a DRAM size in bytes gives, none below 1 GiB (R17, R140). -/
def dramCapacity (dram : Option Nat) : Option Nat :=
  match dram with
  | none => none
  | some n =>
    if n < 2 ^ 30 then none else if n < 2 ^ 31 then some (2 ^ 24) else if n < 2 ^ 32 then some (2 ^ 25)
    else some (2 ^ 26)

/-- Every block at its after-cold-start value; what lies outside the part's reset stays: the commands waiting, the flash,
the DRAM device, the PHY's link, and the count of free values. -/
def freshState (s : State) : State :=
  { State.reset with pending := s.pending, flash := s.flash, dram := s.dram, freeIx := s.freeIx,
                     link.up := s.link.up }

/-- Cold start up to the detection of the disks (R140, steps 1 to 3; R162, R196). A flash that gives no answer draws new
free values for what the report shows of it (log 26). A second SET_CONFIG still being written when the OK of the first leaves
is forgotten and not answered: the block read is the one in the flash now (R199 does not say; DESIGN CHOICE, log 42). -/
def coldStart (s : State) : State :=
  let s := freshState s
  let bs := (s.flash.getD []).take 48
  let s := { s with report.asRead := bs, freeIx := if bs.length < 48 then s.freeIx + 48 else s.freeIx }
  if !blockValid bs then { s with power.station := .unconfigured, cold := .finished }
  else
    let conf := confOf bs
    let s := { s with report.conf := conf }
    let s := if blockClamped bs then setFlag .configClamped s else s
    match dramCapacity s.dram with
    | none => enterHalted .memory s
    | some n => { s with index.capacity := n, engine := setupEngine conf s.engine }

/-- POWER_ON_RESET (R162): the station enters COLD_START from any state; the operands are what the flash and the DRAM
device answer (log 4). -/
def execPowerOnReset (flash : Option (List Byte)) (dram : Option Nat) (s : State) :
    Host.Outcome State Fault Refusal :=
  .next (coldStart { s with flash := flash, dram := dram })

/-- DISK_DETECT: a port's link bring-up ends, once per cold start (R42). -/
def execDiskDetect (d : DiskPort) (capacity : Option Nat) (s : State) : Host.Outcome State Fault Refusal :=
  .next (if s.power.station = .coldStart ∧ s.cold = .ports ∧ !(s.ports.port[d]).detected then detect d capacity s
    else s)

/-- WAKE_STAB, second stage: the lock attempt has failed; a second attempt, or cold start (R174). -/
def execWakeStabStage2Expiry (s : State) : Host.Outcome State Fault Refusal :=
  .next (match takeExpiry wakeStabTimer .second s with
    | none => s
    | some s =>
      if s.power.station = .waking then
        if s.power.lockAttempt = 1 then startRxt { s with power.lockAttempt := 2 } else coldStart s
      else s)

/-! ### Making the store whole -/

/-- The extents a close in progress has placed. -/
def closingExtents (x : Session) : List Extent :=
  match x.closing with
  | none => []
  | some cl =>
    cl.extents.filterMap fun e =>
      match e with
      | .written e => some e
      | .writing p n _ _ _ _ => some { place := p, count := n }
      | .absent => none
      | .failed => none

/-- Every extent named in an object record, a photo entry or a saved session (R36). -/
def namedExtents (s : State) : List Extent :=
  s.sessions.clients.toList.flatMap (fun k =>
      match k with
      | some k => k.snapshots.flatMap (fun n => n.objects.filterMap (·.extent))
      | none => []) ++
    s.catalog.photos.filterMap (·.extent) ++
    s.sessions.table.toList.flatMap (fun x => match x with | some x => closingExtents x | none => [])

/-- The block maps are rebuilt: copies and extents are marked allocated (R36). The maps start with the whole data area
free. -/
def rebuildMaps (s : State) : State :=
  let s := s.index.entries.foldl (fun s e =>
    (copiesOf e.2).foldl (fun s p => markBlocks p (copyBlocks e.2.id.length) s) s) s
  (namedExtents s).foldl (fun s e => markBlocks e.place (extentBlocks e.count) s) s

/-- Drop references, as the DROPs of the abandonment do (R24, R143). -/
def dropAll : List ChunkId → State → State
  | [], s => s
  | id :: ids, s => dropAll ids (takeDrop id s)

/-- The elements of a saved session that hold a reference: its object's, and those of draft objects not turned over (R132,
R143). -/
def savedElements (x : Session) : List ChunkId :=
  (match x.current with | some o => heldElements o.elems | none => []) ++ draftHeld x.draft

/-- The parts of the image that hold a saved session, its draft and its elements (R60, R73, R131). -/
def sessionParts (s : State) (i : SessionNo) : List ImagePart :=
  match s.sessions.table[i] with
  | none => []
  | some x =>
    .session i.val ::
      (draftParts i x.draft ++
        match x.current with
        | some o => (List.range o.elems.length).map (.element i.val x.draft.length)
        | none => [])

/-- The parts of the image that hold a saved fetch, its elements and its photo (R103, R131). -/
def fetchParts (s : State) (f : FetchNo) : List ImagePart :=
  match s.catalog.fetches[f] with
  | none => []
  | some x => .fetch f.val :: .photo x.photo :: (List.range x.elems.length).map (.fetchElement f.val)

/-- Every saved session is abandoned (R143, step 2). The extents of objects turned over are no longer the session's. -/
def abandonSaved (s : State) : State :=
  let all := s.sessions.table.toList.filterMap id
  let s := dropAll (all.flatMap savedElements) s
  let s := (all.flatMap closingExtents).foldl (fun s e => freeExtent e s) s
  let held := placesWhere (fun k : Option Client => k.any (fun k => k.reserved ≠ 0)) s.sessions.clients.toList
  noteChanges ((List.finRange 4).flatMap (sessionParts s) ++ held.map ImagePart.client)
    { s with sessions.table := Vector.replicate 4 none,
             sessions.clients := s.sessions.clients.map (fun k => k.map (fun k => { k with reserved := 0 })) }

/-- Every saved fetch is abandoned; its photo becomes WANTED unless it is HELD (R114, R143, step 3). -/
def abandonFetches (s : State) : State :=
  let all := s.catalog.fetches.toList.filterMap id
  let s := dropAll (all.flatMap heldByFetch) s
  let wanted := all.map (·.photo)
  noteChanges ((List.finRange 2).flatMap (fetchParts s))
    { s with catalog.fetches := Vector.replicate 2 none,
             catalog.photos := s.catalog.photos.zipIdx.map (fun p =>
               if p.2 ∈ wanted ∧ p.1.state ≠ .held then { p.1 with state := .wanted } else p.1) }

/-- Every entry still WRITING is removed, and every other one that meets R25 (R143, step 4). -/
def removeUnfinished (s : State) : State :=
  let gone := s.index.entries.filter (fun e => e.2.state = .writing || removable e.2)
  let s := gone.foldl (fun s e => freeCopies (copyBlocks e.2.id.length) (copiesOf e.2) s) s
  noteChanges (gone.map (fun e => .index e.1))
    { s with index.entries := s.index.entries.filter (fun e => e.2.state ≠ .writing && !removable e.2) }

/-- Every retirement item becomes ready (R84, R143, step 5). -/
def readyItems (s : State) : State :=
  if s.sessions.retire.any (·.blocked) then
    noteChanges ((s.sessions.retire.filter (·.blocked)).map itemPart)
      { s with sessions.retire := s.sessions.retire.map (fun t => { t with blocked := false }) }
  else s

/-- The catalog's start: the wanted list from the WANTED entries in position order, at most 1,024, the others KNOWN; the
announced seq (R114). -/
def startCatalog (s : State) : State :=
  let wanted := (s.catalog.photos.zipIdx.filter (fun p => p.1.state = .wanted)).map (·.2)
  let listed := wanted.take 1024
  let due := s.now + BitVec.ofNat 32 (fetchDelay s)
  let s := (wanted.drop 1024).foldl (fun s pos => setPhoto pos (fun p => { p with state := .known }) s) s
  { s with catalog.wanted := listed.map (fun pos => { pos := pos, due := due }),
           catalog.announced := s.catalog.ownCounter, catalog.pending := [] }

/-- Did steps 2 to 4 change anything (R143, step 7)? -/
def storeChanged (a b : State) : Bool :=
  a.index.entries ≠ b.index.entries || a.sessions.table ≠ b.sessions.table || a.sessions.clients ≠ b.sessions.clients ||
    a.catalog.fetches ≠ b.catalog.fetches || a.catalog.photos ≠ b.catalog.photos

/-- Cold start makes the store whole (R143). -/
def makeWhole (changed : Bool) (s : State) : State :=
  let whole := rebuildMaps s
  let s := removeUnfinished (abandonFetches (abandonSaved whole))
  let changed := changed || storeChanged whole s
  let s := startCatalog (retire (readyItems s))
  if changed then requestCheckpoint (some .coldStart) { s with cold := .starting }
  else enterAwake .coldStart { s with cold := .finished }

/-! ### Members -/

/-- A disk large enough to be a member (R35). -/
def bigEnough (d : DiskPort) (s : State) : Bool := 1572866 ≤ (s.ports.port[d]).capacity

/-- The member number in a port's label, where it names this store (R34). -/
def labelNumber (d : DiskPort) (s : State) : Option Nat :=
  match (s.ports.port[d]).label with
  | .hs4 l => if l.store = s.alloc.store then some l.member else none
  | _ => none

/-- The loaded member a port's disk is: its label names this store and a number of the table, and no lower port carries it
(R34; log 35). -/
def matchedNumber (numbers : List Nat) (d : DiskPort) (s : State) : Option Nat :=
  match labelNumber d s with
  | some k =>
    if k ∈ numbers ∧ bigEnough d s ∧
        ((List.finRange 4).filter (fun e => e < d)).all (fun e => labelNumber e s ≠ some k || !bigEnough e s) then
      some k
    else none
  | none => none

/-- A slot whose disk holds it empty: a disk too small for a member (R35), or one whose label stayed UNREAD (R42). A disk that
became FAULTED before its label READ is not one of them: R42's note counts its label as UNREAD, while R34 and R59 keep the
MISSING member's number for it; the model keeps it (DESIGN CHOICE, log 35). -/
def slotBarred (d : DiskPort) (s : State) : Bool :=
  let p := s.ports.port[d]
  p.spin ≠ .absent && (!bigEnough d s || (p.spin ≠ .faulted && p.label = .unread))

/-- The disks to be taken as new members, in port order (R34, R141, R142): large enough, and blank, of another store, or
of this store with a number the loaded table lacks. -/
def newDisks (numbers : List Nat) (s : State) : List DiskPort :=
  (List.finRange 4).filter fun d =>
    bigEnough d s &&
      match (s.ports.port[d]).label with
      | .none => false
      | .unread => false
      | .blank => true
      | .hs4 l => l.store ≠ s.alloc.store || !numbers.contains l.member

/-- A MISSING member that cannot stay in its slot takes the lowest free slot whose disk does not empty it (R35, R42) and that is
not set apart, such as one a new disk is to have; with none it leaves the table (R34; log 35). -/
def rehouse (apart : List DiskPort) (number : Nat) (s : State) : State :=
  match (List.finRange 4).find? (fun d => (s.alloc.members[d]).isNone && !slotBarred d s && !apart.contains d) with
  | some d => { s with alloc.members := put s.alloc.members d (some { number := number, map := none }) }
  | none => s

/-- The member table after matching (R34): matched disks in their ports' slots; unmatched members stay MISSING in their
own slots, or in another one where a matched disk took theirs or a barred disk empties it (R35, R42; log 35). -/
def matchMembers (loaded : List (Option Nat)) (s : State) : State :=
  let numbers := loaded.filterMap id
  let found := (List.finRange 4).map (fun d => matchedNumber numbers d s)
  let start : Vector (Option Member) 4 := Vector.ofFn (fun d : DiskPort =>
    match (found[d.val]?).join with
    | some k => some { number := k, map := some (BlockMap.fresh (s.ports.port[d]).capacity) }
    | none =>
      match (loaded[d.val]?).join with
      | some k => if some k ∈ found ∨ slotBarred d s then none else some { number := k, map := none }
      | none => none)
  let placed := start.toList.filterMap (fun m => m.map (·.number))
  (numbers.filter (fun k => !placed.contains k)).foldl (fun s k => rehouse (newDisks numbers s) k s)
    { s with alloc.members := start }

/-- The disk of a slot is not taken as a new member, and the slot holds none (R34). A member left unmatched there was displaced
by no new disk and stays MISSING, in another slot (R34; log 35). -/
def notTaken (numbers : List Nat) (d : DiskPort) (s : State) : State :=
  let t : State := { s with alloc.members := put s.alloc.members d none }
  match s.alloc.members[d] with
  | some { number := k, map := none } => rehouse (d :: newDisks numbers s) k t
  | _ => t

/-- The member numbers of a table (R34). -/
def numbersOf (table : List (Option (Nat × Bool))) : List Nat := table.filterMap (fun m => m.map (·.1))

/-- New members join one at a time in port order: the next one's label is written, or, past number 255, its disk is not
taken; then a table that has changed is reported (R19), and the store is made whole (R34, R143; log 30). -/
def joinNext : List DiskPort → Bool → List (Option (Nat × Bool)) → State → State
  | [], fresh, before, s =>
    if fresh ∨ memberStates s ≠ before then makeWhole true (noteChange .members s) else makeWhole false s
  | d :: rest, fresh, before, s =>
    if 255 ≤ s.alloc.highest then joinNext rest fresh before (notTaken (numbersOf before) d s)
    else
      post (.commandOffer d
          { requester := .labelWrite, cls := .metadata,
            op := .write 0 1 (.label { store := s.alloc.store, member := s.alloc.highest + 1 }) })
        { s with cold := .joining (d :: rest) fresh before }

/-- The label WRITE of a new member ends (R34, R42). -/
def labelWriteEnded (d : DiskPort) (res : DiskResult) (s : State) : State :=
  match s.cold with
  | .joining (e :: rest) fresh before =>
    if e ≠ d then s
    else if res = .done then
      let n := s.alloc.highest + 1
      joinNext rest fresh before
        (setPort d (fun p => { p with label := .hs4 { store := s.alloc.store, member := n } })
          { s with alloc.highest := n,
                   alloc.members := put s.alloc.members d
                     (some { number := n, map := some (BlockMap.fresh (s.ports.port[d]).capacity) }) })
    else joinNext rest fresh before (notTaken (numbersOf before) d s)
  | _ => s

/-! ### Loading -/

/-- A vector of options from a list: what the list leaves out is none. -/
def vectorOf (n : Nat) (l : List (Option α)) : Vector (Option α) n := Vector.ofFn (fun i => (l[i.val]?).join)

/-- An entry as cold start puts it back: what the image saves, with no working part (R18, R132). -/
def loadedEntry (e : ImageEntry) : Entry :=
  { id := e.id, state := e.state, mark := e.mark, count := e.count, copyA := e.copyA, copyB := e.copyB, write := none,
    holds := 0, recopy := none, released := [] }

/-- Put a loaded entry at a free position of the table, unless its chunk has one already (R17). -/
def putBack (pos : Nat) (e : ImageEntry) (s : State) : State :=
  if s.index.capacity + 65536 ≤ pos ∨ (entryAt pos s).isSome ∨ (findEntry e.id s).isSome then s
  else { s with index.entries := insertBy (fun a b => a.1 < b.1) (pos, loadedEntry e) s.index.entries }

/-- The entries of a smaller image are inserted afresh in position order, each by the MISS rule (R22, R142). -/
def reinsert : List (Nat × ImageEntry) → State → State
  | [], s => s
  | (_, e) :: es, s =>
    reinsert es
      (match emptySlot e.id.print s with
        | some pos => putBack pos e s
        | none => s)

/-- The index section (R142): entries at their positions, or inserted afresh with the scrub cursor at 0. -/
def loadIndex (capacity : Nat) (image : Image) (s : State) : State :=
  if capacity = s.index.capacity then
    { image.entries.foldl (fun s e => putBack e.1 e.2 s) s with
      verify.cursor := image.scrubCursor, ckpt.capturedCursor := image.scrubCursor }
  else { reinsert image.entries s with verify.cursor := 0, ckpt.capturedCursor := image.scrubCursor }

/-- The generation and half of a port's highest valid root (R142). -/
def highestRoot (found : List FoundRoot) (d : DiskPort) : Option (Word × Bool) :=
  (found.find? (fun r => r.port = d)).map (fun r => (r.root.generation, r.half))

/-- The image is loaded and members are matched; new disks then join (R142). -/
def loadImage (found : List FoundRoot) (root : Root) (image : Image) (s : State) : State :=
  let s := loadIndex root.capacity image s
  let s :=
    { s with
      alloc.store := image.store, alloc.highest := image.highest,
      sessions.clients := vectorOf 16 image.clients, sessions.table := vectorOf 4 image.sessions,
      sessions.retire := image.retire, catalog.titles := vectorOf 32 image.titles, catalog.photos := image.photos,
      catalog.origins := image.origins, catalog.ownCounter := image.ownCounter,
      catalog.fetches := vectorOf 2 image.fetches, ckpt.generation := root.generation }
  let s := matchMembers (image.members.map (fun m => m.map (·.1))) s
  let s :=
    { s with ckpt.memberGen := Vector.ofFn (fun d : DiskPort =>
        match s.alloc.members[d] with
        | some { map := some _, .. } => highestRoot found d
        | _ => none) }
  joinNext (newDisks (numbersOf image.members) s) false image.members s

/-- A new store is created at generation 0 from the blank disks (R34, R141). -/
def newStore (s : State) : State :=
  let s := { s with alloc.store := s.conf.mac }
  joinNext (newDisks [] s) true (List.replicate 4 none) s

/-! ### Roots and images -/

/-- Is a root valid for the disk with this label (R133)? -/
def rootValid (l : DiskLabel) (r : Root) : Bool :=
  r.marker && r.rootCrc = Config.rootCrc { r with rootCrc := 0 } && r.store = l.store && r.member = l.member

/-- The label a port read, when it is an HS4 label. -/
def hs4Label (d : DiskPort) (s : State) : Option DiskLabel :=
  match (s.ports.port[d]).label with
  | .hs4 l => some l
  | _ => none

/-- The order of candidates: generation, highest first, then port, then half (R141). -/
def candidateBefore (a b : FoundRoot) : Bool :=
  b.root.generation < a.root.generation ||
    (a.root.generation = b.root.generation && (a.port < b.port || (a.port = b.port && !a.half && b.half)))

/-- Is an image sound under a root: its pages are all there and give the image CRC (R133)? -/
def imageSound (root : Root) (image : Image) : Bool :=
  root.pageCount = imagePages image.capacity && root.imageCrc = Config.imageCrc image

/-- Read the first candidate's image pages, at most 256 blocks to a READ (R141); with no candidate left the station
halts. A root that counts no page has no image to be sound. -/
def readCandidate (found : List FoundRoot) : List FoundRoot → State → State
  | [], s => enterHalted .noImage s
  | c :: rest, s =>
    let reads := splitBlocks c.root.pageCount (rootBlock c.half + 1) c.root.pageCount
    if reads.isEmpty then readCandidate found rest s
    else
      postAll (reads.map (fun r =>
          Instr.commandOffer c.port { requester := .imageRead, cls := .metadata, op := .read r.1 r.2 }))
        { s with cold := .images found (c :: rest) reads.length none false }

/-- Every root READ has ended: the candidate list is formed (R141). -/
def chooseImage (found : List FoundRoot) (s : State) : State :=
  let ordered := found.foldl (fun acc r => insertBy candidateBefore r acc) []
  readCandidate ordered ordered s

/-- ROOT_READ_START: both roots of each disk with an HS4 label are read; with none the store is new (R141). -/
def execRootReadStart (s : State) : Host.Outcome State Fault Refusal :=
  .next (if s.power.station = .coldStart ∧ s.cold = .ports ∧ s.ports.port.toList.all labelSettled then
      let labelled := (List.finRange 4).filter (fun d => (hs4Label d s).isSome)
      if labelled.isEmpty then newStore s
      else
        postAll (labelled.flatMap (fun d =>
            [false, true].map (fun half =>
              Instr.commandOffer d
                { requester := .rootRead half, cls := .metadata, op := .read (rootBlock half) 1 })))
          { s with cold := .roots (2 * labelled.length) [] }
    else s)

/-- A root READ ends (R141): a valid root joins the candidates. -/
def rootReadEnded (d : DiskPort) (half : Bool) (res : DiskResult) (data : ReadData) (s : State) : State :=
  match s.cold with
  | .roots left found =>
    let found :=
      match res, data, hs4Label d s with
      | .done, .root (some r), some l =>
        if rootValid l r then found ++ [{ port := d, half := half, root := r }] else found
      | _, _, _ => found
    if 1 < left then { s with cold := .roots (left - 1) found } else chooseImage found s
  | _ => s

/-- The image of which a READ brought the pages it names, if it brought such pages (log 10). -/
def pagesRead (res : DiskResult) (data : ReadData) : Option Image :=
  match res, data with
  | .done, .pages i => some i
  | _, _ => none

/-- A READ of image pages ends; with the last one the image is judged (R141): sound when every READ brought its pages of
one image whose CRC is the root's. After a READ that failed too, the next candidate is tried only once every READ of this one
has ended: R141 does not say when (DESIGN CHOICE, log 43). -/
def imageReadEnded (d : DiskPort) (res : DiskResult) (data : ReadData) (s : State) : State :=
  match s.cold with
  | .images found (c :: rest) left image bad =>
    if c.port ≠ d then s
    else
      let read := pagesRead res data
      let bad := bad || read.isNone || (image.isSome && image ≠ read)
      if 1 < left then { s with cold := .images found (c :: rest) (left - 1) read bad }
      else
        match read with
        | some i =>
          if !bad ∧ imageSound c.root i then
            if s.index.capacity < c.root.capacity then enterHalted .dramSmall s else loadImage found c.root i s
          else readCandidate found rest s
        | none => readCandidate found rest s
  | _ => s

/-- The label READ of a port ends (R42): the label, BLANK or UNREAD. -/
def labelReadEnded (d : DiskPort) (res : DiskResult) (data : ReadData) (s : State) : State :=
  let label : PortLabel :=
    match res, data with
    | .done, .label (some l) => .hs4 l
    | .done, _ => .blank
    | _, _ => .unread
  tellSettled (setPort d (fun p => { p with label := label, labelDone := true }) s)

end Sys2Proof.Machine
end

