-- ==== Sys2Proof/Machine/Disk.lean ====
section
/-! DEFINITION. The disk ports' commands (R42 to R57), and the way a port's words reach those they are meant for: final
outcomes to their requesters (R53), faults to the checkpoint unit and the cold start (R52, R137), answers to the power unit
(R56). -/

namespace Sys2Proof.Machine

/-- Does a requester belong to a block that takes no outcome once the station is HALTED (R162)? -/
def haltsWithStation (r : Requester) : Bool :=
  match userOf r with
  | .sessions => true
  | .catalog => true
  | .verify => true
  | .index => false
  | .checkpoint => false
  | .allocator => false
  | .port => false

/-- What a final outcome does at its requester (R53). -/
def requesterTakes (d : DiskPort) (r : Requester) (res : DiskResult) (data : ReadData) (s : State) : State :=
  match r with
  | .chunkWrite id side => chunkWriteEnded id side (res = .done) s
  | .recopyWrite id side => recopyWriteEnded id side (res = .done) s
  | .closeExtent i j => closeExtentEnded i j (res = .done) s
  | .fetchExtent f => fetchExtentEnded f (res = .done) s
  | .recipeRead job => recipeReadEnded job res data s
  | .retirePage => retirePageEnded res data s
  | .vread job => vreadReadEnded job res data s
  | .recordRead id side => recordReadEnded id side res data s
  | .recordServe job => recordServeEnded job res data s
  | .remirrorRead id => remirrorReadEnded id res data s
  | .scrubRead id side => scrubReadEnded id side res data s
  | .labelRead => labelReadEnded d res data s
  | .labelWrite => labelWriteEnded d res s
  | .rootRead half => rootReadEnded d half res data s
  | .imageRead => imageReadEnded d res data s
  | .ckptPages g n => ckptEnded d g (.ckptPages g n) res s
  | .ckptFirstFlush g => ckptEnded d g (.ckptFirstFlush g) res s
  | .ckptRoot g => ckptEnded d g (.ckptRoot g) res s
  | .ckptLastFlush g => ckptEnded d g (.ckptLastFlush g) res s

/-- An outcome reaches its requester, or waits for RELEASE or a shadow slot (R53, R135, R136, R162). -/
def takeOutcome (d : DiskPort) (r : Requester) (res : DiskResult) (data : ReadData) (s : State) : State :=
  let f := requesterTakes d r res data
  asWork (.outcome d r res data) (if haltsWithStation r then unlessHalted f else f) s

/-- One word of a port is delivered. -/
def deliverWord (d : DiskPort) (w : PortWord) (s : State) : State :=
  match w with
  | .ended r res data => takeOutcome d r res data s
  | .fault => tellSettled (memberFault d s)
  | .say c => post c s

/-- A port's words are delivered in order. -/
def deliver (d : DiskPort) : List PortWord → State → State
  | [], s => s
  | w :: ws, s => deliver d ws (deliverWord d w s)

/-- A port's step, with its words delivered. -/
def portStep (d : DiskPort) (f : State → State × List PortWord) (s : State) : State :=
  deliver d (f s).2 (f s).1

/-- COMMAND_OFFER (R43, R48). -/
def execCommandOffer (d : DiskPort) (cmd : DiskCmd) (s : State) : Host.Outcome State Fault Refusal :=
  .next (portStep d (offerCommand d cmd) s)

/-- The disk reports ready (R42, R47). -/
def execSpinupReady (d : DiskPort) (s : State) : Host.Outcome State Fault Refusal :=
  .next (portStep d (spinReady d) s)

/-- The spin-up watch runs out (R47). -/
def execSpinupWatchExpiry (d : DiskPort) (s : State) : Host.Outcome State Fault Refusal :=
  .next (if watchOut d s then portStep d (spinTimeout d) s else s)

/-- The disk reports an error during a spin-up: the attempt ends (R47). -/
def execSpinUpError (d : DiskPort) (s : State) : Host.Outcome State Fault Refusal :=
  .next (portStep d (spinTimeout d) s)

/-- The disk reports a command complete, or an error of disk or link (R50, R51). -/
def execDiskCommandReport (d : DiskPort) (ended : AttemptEnd) (data : ReadData) (s : State) :
    Host.Outcome State Fault Refusal :=
  .next (portStep d (reportAttempt d ended data) s)

/-- The command watch runs out: the attempt has failed (R50). -/
def execCommandWatchExpiry (d : DiskPort) (s : State) : Host.Outcome State Fault Refusal :=
  .next (if watchOut d s ∧ (s.ports.port[d]).spin ≠ .spinup then portStep d (endAttempt d false .nothing) s else s)

/-- DISK_IDLE expiry (R55, R56). -/
def execDiskIdleExpiry (d : DiskPort) (s : State) : Host.Outcome State Fault Refusal :=
  .next (match takeExpiry (diskIdleTimer d) .first s with
    | none => s
    | some s => idleExpiry d s)

/-- PARK (R56). -/
def execPark (d : DiskPort) (s : State) : Host.Outcome State Fault Refusal := .next (parkPort d s)

/-- UNPARK (R57). -/
def execUnpark (d : DiskPort) (s : State) : Host.Outcome State Fault Refusal := .next (unparkPort d s)

end Sys2Proof.Machine
end

