-- ==== Sys2Proof/Machine/Heard.lean ====
section
/-! DEFINITION. What the link unit does with what it hears: requests (R187 to R189, R202), announcements (R148, R149, R159,
R95), REPLY and DATA frames (R193), the REPLY timer (R194), and what leaves for the PHY (R191, R199). -/

namespace Sys2Proof.Machine

/-- Does the station take frames through its link unit, the peer directory first (R187, R188)? -/
def linkOpen (s : State) : Bool :=
  s.power.station = .awake || s.power.station = .dozing || parkingOpen s

/-- A frame reaches the station (R160, R172, R188): ASLEEP and WAKING leave it to the listener, the final step of parking
holds it, and every other state validates it. The receive buffer that holds frames in the final step has no bound here: R172
gives it no capacity and no outcome when full (DESIGN CHOICE, log 48). -/
def receive (f : RxFrame) (bad : ReqHdr → State → State) (good : ReqHdr → Tag → Bool → Body → State → State)
    (s : State) : State :=
  if s.power.station = .asleep ∨ s.power.station = .waking then listen f s
  else if s.power.station = .parking ∧ s.power.step = .final then
    { s with link.rxHeld := s.link.rxHeld ++ [f] }
  else
    match validate s f with
    | .discard => s
    | .bad h => bad h s
    | .good h target more b => good h target more b s

/-! ### Requests -/

/-- A request joins the intake queue, or is answered BUSY when it holds 32; either way it is reported as taken, and what
may be offered is offered (R189). -/
def takeArrival (h : ReqHdr) (c : Instr) (s : State) : State :=
  let s :=
    if s.link.intake.length < 32 then
      { s with link.intake := s.link.intake ++ [{ cmd := c, standing := .queued }] }
    else refuse h .busy s
  offerRequests (requestTaken s)

/-- Does the configuration and report block take this request (R188)? -/
def isReportRequest (c : Instr) : Bool := ownedBy .report c

/-- A validated request, by the station state (R188, R198, R202). -/
def takeRequestFrame (h : ReqHdr) (c : Instr) (s : State) : State :=
  match s.power.station with
  | .coldStart => refuse h .busy s
  | .unconfigured => if isReportRequest c then post c s else s
  | .halted => if isReportRequest c then post c s else answerReport h .halted [] s
  | _ => if linkOpen s then takeArrival h c (hearPeer h .other s) else s

/-- INTAKE_ARRIVAL (R187 to R189). A malformed QUERY_STATION or SET_CONFIG to FFFFH is answered BAD_REQUEST in UNCONFIGURED too,
by R187's test of form, where R198 has every frame but those two requests discarded (DESIGN CHOICE, log 48). -/
def intakeArrival (f : RxFrame) (s : State) : State :=
  receive f (fun h s => refuse h .badRequest s)
    (fun h _ _ b s =>
      match b with
      | .request c => takeRequestFrame h c s
      | _ => s) s

/-- On a dead link a frame does not exist (R191). -/
def ifLinked (f : State → State) (s : State) : State := if s.link.up then f s else s

/-- INTAKE_ARRIVAL (R189). -/
def execIntakeArrival (f : RxFrame) (s : State) : Host.Outcome State Fault Refusal :=
  .next (ifLinked (intakeArrival f) s)

/-! ### Announcements -/

/-- An announcement heard with the link open; every other state discards it (R188). -/
def heard (f : RxFrame) (act : ReqHdr → Tag → Bool → Body → State → State) (s : State) : State :=
  receive f (fun _ s => s) (fun h target more b s => if linkOpen s then act h target more b s else s) s

/-- DOZE (R149): from another BOX its tag goes to the power unit. That of a box with the own tag changes no entry (R145) and is
not handed on either, as R159 has it for WAKE: R149 does not say (DESIGN CHOICE, log 41). -/
def doze (f : RxFrame) (s : State) : State :=
  heard f (fun h _ _ b s =>
    match b with
    | .doze digest =>
      let s := hearPeer h (.doze digest) s
      if h.box ∧ h.tag ≠ s.conf.tag then peerDozed h.tag s else s
    | _ => s) s

/-- DOZE (R149). -/
def execDoze (f : RxFrame) (s : State) : Host.Outcome State Fault Refusal := .next (ifLinked (doze f) s)

/-- WAKE (R159): other targets end proxy slots in WAKE_DELAY; the own tag and FFFFH go to the power unit. -/
def wake (f : RxFrame) (s : State) : State :=
  heard f (fun h target _ b s =>
    match b with
    | .wake _ =>
      if h.tag = s.conf.tag then s
      else
        let s := hearPeer h .other s
        let s := if target ≠ s.conf.tag then standDown target s else s
        if target = s.conf.tag ∨ target = allStations then wakeHeard s else s
    | _ => s) s

/-- WAKE (R159). -/
def execWake (f : RxFrame) (s : State) : Host.Outcome State Fault Refusal := .next (ifLinked (wake f) s)

/-! ### Answers to this station's requests -/

/-- The entry an answer matches: its number, and its source for the entry's target (R193). -/
def matchEntry (h : ReqHdr) (s : State) : Option OutEntry :=
  s.link.outgoing.find? (fun e => e.number = h.number && e.target = h.tag)

/-- Free an entry; the oldest asker waiting takes one, and the timer is set again (R192, R193, R194). -/
def freeEntry (e : OutEntry) (s : State) : State :=
  admitAsk (rearmReply s.link.outgoing.head?
    { s with link.outgoing := s.link.outgoing.filter (fun x => x.number ≠ e.number) })

/-- A REPLY reaches its asker (R193). -/
def askerReply (e : OutEntry) (code : Byte) (body : List Byte) (more : Bool) (s : State) : State :=
  match e.asker with
  | .catchup => talkReply (some (code, body, more)) s
  | .fetch f => fetchReply f e.kind code body more s
  | .repair => tellQuiet (repairReply (some code) s)

/-- A REPLY is matched, its entry freed, and its asker told (R193). -/
def takeReply (h : ReqHdr) (code : Byte) (body : List Byte) (more : Bool) (s : State) : State :=
  match matchEntry h s with
  | none => s
  | some e => askerReply e code body more (freeEntry e s)

/-- Is a REPLY malformed by the layout of what it answers (R187, R195): the first page of a photo's recipe with a caption
above its limit? -/
def replyBad (h : ReqHdr) (code : Byte) (body : List Byte) (s : State) : Bool :=
  match matchEntry h s with
  | some { kind := .getRecipe, asker := .fetch f, .. } =>
    code = codeByte .ok && (s.catalog.fetches[f]).any (fun x => x.elems.isEmpty) && 10 < body.length &&
      64 < (body.getD 10 0).toNat
  | _ => false

/-- A DATA frame's entry takes the latest deadline and its place by it: the last one, but for entries of an equal deadline
made later (R192, R193). -/
def moveDeadline (e : OutEntry) (s : State) : State :=
  let moved : OutEntry := { e with deadline := s.link.ticks + 5120 }
  let others := s.link.outgoing.filter (fun x => x.number ≠ e.number)
  let before := fun (a b : OutEntry) => b.deadline = a.deadline && decide (a.made < b.made)
  rearmReply s.link.outgoing.head? { s with link.outgoing := insertBy before moved others }

/-- A DATA frame matched to a GET_CHUNK entry keeps that entry alive (R193). -/
def keepAlive (h : ReqHdr) (s : State) : State :=
  match matchEntry h s with
  | none => s
  | some e => if e.kind = .getChunk then moveDeadline e s else s

/-- DATA reaches its asker (R105, R123, R193). -/
def askerData (e : OutEntry) (off : Nat) (bytes : List Byte) (s : State) : State :=
  match e.asker with
  | .catchup => s
  | .fetch f => fetchData f off bytes s
  | .repair => tellQuiet (repairData off bytes s)

/-- A DATA frame is matched to a GET_CHUNK entry; to one of another kind it is discarded (R193). -/
def takeData (h : ReqHdr) (off : Nat) (bytes : List Byte) (s : State) : State :=
  match matchEntry h s with
  | none => s
  | some e => if e.kind = .getChunk then askerData e off bytes s else s

/-! ### What frames hand on -/

/-- What the album catalog, or the asker of a request, does with what a frame hands on (R95, R98, R193). -/
def takeHanded (x : Handed) (s : State) : State :=
  match x with
  | .seq h seq => hearSeq h seq s
  | .holding h ms => takeHolding h ms s
  | .reply h code body more => takeReply h code body more s
  | .data h off bytes => takeData h off bytes s

/-- A frame hands on what it carries, which alone can have to wait for RELEASE or for a shadow slot: the peer directory has
taken the frame by then (R135, R136, R146; log 6). -/
def passOn (x : Handed) (s : State) : State := asWork (.heard x) (unlessHalted (takeHanded x)) s

/-- PRESENCE (R148): the directory takes it, and hands the newest origin seq to the catalog. -/
def presence (f : RxFrame) (s : State) : State :=
  heard f (fun h _ _ b s =>
    match b with
    | .presence period seq => passOn (.seq h seq) (hearPeer h (.presence period seq) s)
    | _ => s) s

/-- HOLDING (R95), the directory first (R146). -/
def holding (f : RxFrame) (s : State) : State :=
  heard f (fun h _ _ b s =>
    match b with
    | .holding ms => passOn (.holding h ms) (hearPeer h .other s)
    | _ => s) s

/-- REPLY (R193); a malformed one is discarded before any block hears of it (R187). -/
def replyFrame (f : RxFrame) (s : State) : State :=
  heard f (fun h _ more b s =>
    match b with
    | .reply code body =>
      if replyBad h code body s then s else passOn (.reply h code body more) (hearPeer h .other s)
    | _ => s) s

/-- DATA (R193): the directory takes it, its entry's deadline moves, and the bytes go to the asker. -/
def dataFrame (f : RxFrame) (s : State) : State :=
  heard f (fun h _ _ b s =>
    match b with
    | .data off bytes => passOn (.data h off bytes) (keepAlive h (hearPeer h .other s))
    | _ => s) s

/-- PRESENCE (R148). -/
def execPresence (f : RxFrame) (s : State) : Host.Outcome State Fault Refusal := .next (ifLinked (presence f) s)

/-- HOLDING (R95). -/
def execHolding (f : RxFrame) (s : State) : Host.Outcome State Fault Refusal := .next (ifLinked (holding f) s)

/-- REPLY (R193). -/
def execReplyFrame (f : RxFrame) (s : State) : Host.Outcome State Fault Refusal := .next (ifLinked (replyFrame f) s)

/-- DATA (R193). -/
def execDataFrame (f : RxFrame) (s : State) : Host.Outcome State Fault Refusal := .next (ifLinked (dataFrame f) s)

/-! ### The REPLY timer -/

/-- Is a deadline reached: (now − D) modulo 2^32 below 2^31 (R192)? -/
def reached (now deadline : Word) : Bool := (now - deadline).toNat < 2 ^ 31

/-- TIMEOUT reaches an asker (R99, R107, R123, R194). -/
def askerTimeout (e : OutEntry) (s : State) : State :=
  match e.asker with
  | .catchup => talkReply none s
  | .fetch f => failFetch f s
  | .repair => tellQuiet (repairReply none s)

/-- Every entry whose deadline is reached is freed, earliest first, and its asker is given TIMEOUT (R194). -/
def timeOut : Nat → State → State
  | 0, s => s
  | fuel + 1, s =>
    match s.link.outgoing with
    | [] => s
    | e :: _ => if reached s.link.ticks e.deadline then timeOut fuel (askerTimeout e (freeEntry e s)) else s

/-- The timer is started for the earliest entry, or stopped with none left (R194). -/
def restartReply (s : State) : State := rearmReply none s

/-- REPLY expiry (R194). -/
def execReplyTimerExpiry (s : State) : Host.Outcome State Fault Refusal :=
  .next (ownerWork .replyTimerExpiry (fun s =>
    match takeExpiry replyTimer .first s with
    | none => s
    | some s => restartReply (timeOut 8 s)) s)

/-! ### The PHY -/

/-- A frame has left for the PHY, or is discarded at its head on a dead link (R191); a SET_CONFIG's OK that has left
brings cold start (R199), and the final step of parking goes on once the queue is empty (R172). -/
def execTxFrameSent (s : State) : Host.Outcome State Fault Refusal :=
  .next (match s.link.tx with
    | [] => s
    | f :: _ =>
      if f.restart ∧ s.power.station = .unconfigured then coldStart s else callFinal (shiftTx s))

/-- The PHY reports its link up or down (R191). -/
def execPhyLinkState (up : Bool) (s : State) : Host.Outcome State Fault Refusal :=
  .next { s with link.up := up }

end Sys2Proof.Machine
end

