-- ==== Sys2Proof/Machine/Dispatch.lean ====
section
/-! DEFINITION. The dispatch of commands: one arm per constructor of Instr, each one direct call of its meaning. -/

namespace Sys2Proof.Machine

/-- The effect of a command on everything but the queue of commands waiting. -/
def exec (i : Instr) (s : State) : Host.Outcome State Fault Refusal :=
  match i with
  | .powerOnReset flash dram => Sys2Proof.Machine.execPowerOnReset flash dram s
  | .diskDetect d capacity => Sys2Proof.Machine.execDiskDetect d capacity s
  | .rootReadStart => Sys2Proof.Machine.execRootReadStart s
  | .intakeArrival f => Sys2Proof.Machine.execIntakeArrival f s
  | .ownerReady o => Sys2Proof.Machine.execOwnerReady o s
  | .openSession h kind => Sys2Proof.Machine.execOpenSession h kind s
  | .beginObject h object declared caption => Sys2Proof.Machine.execBeginObject h object declared caption s
  | .segment h object offset bytes => Sys2Proof.Machine.execSegment h object offset bytes s
  | .endObject h object => Sys2Proof.Machine.execEndObject h object s
  | .closeSession h => Sys2Proof.Machine.execCloseSession h s
  | .abandonSession h => Sys2Proof.Machine.execAbandonSession h s
  | .listSnapshots h => Sys2Proof.Machine.execListSnapshots h s
  | .listObjects h snapshot first => Sys2Proof.Machine.execListObjects h snapshot first s
  | .dropSnapshot h snapshot => Sys2Proof.Machine.execDropSnapshot h snapshot s
  | .getRecipeSnapshot h snapshot object first => Sys2Proof.Machine.execGetRecipeSnapshot h snapshot object first s
  | .getChunkSnapshot h snapshot object index => Sys2Proof.Machine.execGetChunkSnapshot h snapshot object index s
  | .listAlbum h album first => Sys2Proof.Machine.execListAlbum h album first s
  | .getRecipeAlbum h album photo first => Sys2Proof.Machine.execGetRecipeAlbum h album photo first s
  | .getChunkAlbum h album photo index => Sys2Proof.Machine.execGetChunkAlbum h album photo index s
  | .getChunkPrint h id => Sys2Proof.Machine.execGetChunkPrint h id s
  | .catalogSince h origin after => Sys2Proof.Machine.execCatalogSince h origin after s
  | .queryStation h => Sys2Proof.Machine.execQueryStation h s
  | .clearFlags h mask => Sys2Proof.Machine.execClearFlags h mask s
  | .setConfig h block mask => Sys2Proof.Machine.execSetConfig h block mask s
  | .setConfigWriteDone readBack => Sys2Proof.Machine.execSetConfigWriteDone readBack s
  | .presence f => Sys2Proof.Machine.execPresence f s
  | .doze f => Sys2Proof.Machine.execDoze f s
  | .wake f => Sys2Proof.Machine.execWake f s
  | .holding f => Sys2Proof.Machine.execHolding f s
  | .replyFrame f => Sys2Proof.Machine.execReplyFrame f s
  | .dataFrame f => Sys2Proof.Machine.execDataFrame f s
  | .replyTimerExpiry => Sys2Proof.Machine.execReplyTimerExpiry s
  | .txFrameSent => Sys2Proof.Machine.execTxFrameSent s
  | .phyLinkState up => Sys2Proof.Machine.execPhyLinkState up s
  | .listenerWake f => Sys2Proof.Machine.execListenerWake f s
  | .buttonPress => Sys2Proof.Machine.execButtonPress s
  | .sleepDelayExpiry => Sys2Proof.Machine.execSleepDelayExpiry s
  | .dozeHoldExpiry => Sys2Proof.Machine.execDozeHoldExpiry s
  | .quiet => Sys2Proof.Machine.execQuiet s
  | .saved => Sys2Proof.Machine.execSaved s
  | .parked d => Sys2Proof.Machine.execParked d s
  | .parkFailed d => Sys2Proof.Machine.execParkFailed d s
  | .parkFinal => Sys2Proof.Machine.execParkFinal s
  | .wakeStabStage1Expiry => Sys2Proof.Machine.execWakeStabStage1Expiry s
  | .wakeStabStage2Expiry => Sys2Proof.Machine.execWakeStabStage2Expiry s
  | .pllLock => Sys2Proof.Machine.execPllLock s
  | .sxtStopDetected => Sys2Proof.Machine.execSxtStopDetected s
  | .sxtRestartAttempt => Sys2Proof.Machine.execSxtRestartAttempt s
  | .sxtRestartResult ran => Sys2Proof.Machine.execSxtRestartResult ran s
  | .timerTick => Sys2Proof.Machine.execTimerTick s
  | .timerStart t count second => Sys2Proof.Machine.execTimerStart t count second s
  | .timerStop t => Sys2Proof.Machine.execTimerStop t s
  | .timerExtend t n => Sys2Proof.Machine.execTimerExtend t n s
  | .beaconExpiry => Sys2Proof.Machine.execBeaconExpiry s
  | .silenceExpiry => Sys2Proof.Machine.execSilenceExpiry s
  | .proxyStage1Expiry p => Sys2Proof.Machine.execProxyStage1Expiry p s
  | .proxyStage2Expiry p => Sys2Proof.Machine.execProxyStage2Expiry p s
  | .wantedExpiry => Sys2Proof.Machine.execWantedExpiry s
  | .catchupStart => Sys2Proof.Machine.execCatchupStart s
  | .sessionIdleExpiry n => Sys2Proof.Machine.execSessionIdleExpiry n s
  | .diskIdleExpiry d => Sys2Proof.Machine.execDiskIdleExpiry d s
  | .scrubExpiry => Sys2Proof.Machine.execScrubExpiry s
  | .checkpointExpiry => Sys2Proof.Machine.execCheckpointExpiry s
  | .ctxBind n => Sys2Proof.Machine.execCtxBind n s
  | .ctxOpen n serial => Sys2Proof.Machine.execCtxOpen n serial s
  | .ctxEnter n bytes => Sys2Proof.Machine.execCtxEnter n bytes s
  | .ctxEnd n => Sys2Proof.Machine.execCtxEnd n s
  | .ctxDiscard n => Sys2Proof.Machine.execCtxDiscard n s
  | .ctxUnbind n => Sys2Proof.Machine.execCtxUnbind n s
  | .bufferGrant b => Sys2Proof.Machine.execBufferGrant b s
  | .segmentEntered n serial => Sys2Proof.Machine.execSegmentEntered n serial s
  | .objectCut n serial => Sys2Proof.Machine.execObjectCut n serial s
  | .claimOutcome n serial pos id r => Sys2Proof.Machine.execClaimOutcome n serial pos id r s
  | .sessionSettleReport id r => Sys2Proof.Machine.execSessionSettleReport id r s
  | .vreadAnswer reader o => Sys2Proof.Machine.execVreadAnswer reader o s
  | .fetchClaimOutcome f serial pos id r => Sys2Proof.Machine.execFetchClaimOutcome f serial pos id r s
  | .fetchSettleReport id r => Sys2Proof.Machine.execFetchSettleReport id r s
  | .claim c => Sys2Proof.Machine.execClaim c s
  | .drop id => Sys2Proof.Machine.execDrop id s
  | .mark id => Sys2Proof.Machine.execMark id s
  | .lookup id => Sys2Proof.Machine.execLookup id s
  | .readBegin id => Sys2Proof.Machine.execReadBegin id s
  | .readEnd id => Sys2Proof.Machine.execReadEnd id s
  | .suspect id side => Sys2Proof.Machine.execSuspect id side s
  | .condemn id => Sys2Proof.Machine.execCondemn id s
  | .recopy r => Sys2Proof.Machine.execRecopy r s
  | .commandOffer d cmd => Sys2Proof.Machine.execCommandOffer d cmd s
  | .spinupReady d => Sys2Proof.Machine.execSpinupReady d s
  | .spinupWatchExpiry d => Sys2Proof.Machine.execSpinupWatchExpiry d s
  | .diskCommandReport d ended data => Sys2Proof.Machine.execDiskCommandReport d ended data s
  | .commandWatchExpiry d => Sys2Proof.Machine.execCommandWatchExpiry d s
  | .park d => Sys2Proof.Machine.execPark d s
  | .unpark d => Sys2Proof.Machine.execUnpark d s
  | .vread id cls reader => Sys2Proof.Machine.execVread id cls reader s
  | .recopyAnswer sender id buffer r => Sys2Proof.Machine.execRecopyAnswer sender id buffer r s
  | .verifySettleReport id r => Sys2Proof.Machine.execVerifySettleReport id r s
  | .removalNotice id => Sys2Proof.Machine.execRemovalNotice id s
  | .peerRepairStart => Sys2Proof.Machine.execPeerRepairStart s
  | .remirrorJobStart => Sys2Proof.Machine.execRemirrorJobStart s
  | .hush => Sys2Proof.Machine.execHush s
  | .unhush => Sys2Proof.Machine.execUnhush s
  | .changeReport part => Sys2Proof.Machine.execChangeReport part s
  | .checkpointRequest closer => Sys2Proof.Machine.execCheckpointRequest closer s
  | .hold => Sys2Proof.Machine.execHold s
  | .fence o => Sys2Proof.Machine.execFence o s
  | .fenceBack o => Sys2Proof.Machine.execFenceBack o s
  | .fenceRelease o => Sys2Proof.Machine.execFenceRelease o s
  | .parkSave => Sys2Proof.Machine.execParkSave s
  | .parkSaveWithdraw => Sys2Proof.Machine.execParkSaveWithdraw s
  | .spinUpError d => Sys2Proof.Machine.execSpinUpError d s

end Sys2Proof.Machine
end

