-- ==== Sys2Proof/Machine/Mail.lean ====
section
/-! DEFINITION. The delivery of messages between the units: commands, outcomes of disk commands that waited (R135, R136),
the next object of a turnover (R93), and the work of a producer whose frames have joined (R191; log 1, log 6). -/

namespace Sys2Proof.Machine

/-- A message is delivered. -/
def deliverMail (w : Work) (s : State) : Host.Outcome State Fault Refusal :=
  match w with
  | .cmd c => exec c s
  | .heard x => .next (passOn x s)
  | .outcome d r res data => .next (takeOutcome d r res data s)
  | .turn i => .next (asWork (.turn i) (unlessHalted (turnNext i)) s)
  | .deed d => .next (asWork (.deed d) (unlessHalted (doDeed d)) s)

/-- The oldest waiting work that can go on now does, with what waited before it still in front (R136; log 29): a change
goes on when its page is released or a slot is free and no earlier change waits for one. -/
def serveWaiters : List Work → List Work → State → Option (Host.Outcome State Fault Refusal)
  | _, [], _ => none
  | before, w :: rest, s =>
    match deliverMail w { s with ckpt.waiters := before } with
    | .next t =>
      if t.ckpt.waiters = before then some (.next { t with ckpt.waiters := before ++ rest })
      else serveWaiters (before ++ [w]) rest s
    | out => some out

/-- With no command waiting, work that waited for a shadow slot goes on where it can; else the oldest message between the
units is delivered; with none of these either, the part idles (log 1). -/
def idle (s : State) : Host.Outcome State Fault Refusal :=
  match serveWaiters [] s.ckpt.waiters s with
  | some out => out
  | none =>
    match s.mail with
    | [] => .next s
    | w :: rest => deliverMail w { s with mail := rest }

end Sys2Proof.Machine
end

