-- ==== Sys2Proof/Safety.lean ====
section
/-! DEFINITION. The terms statements are made in: the parts of the state a command leaves alone, a state in which no work has
to wait, what it is for a command to complete, and the station's clocks, link and wake latch as an invariant (R161,
R173). -/

namespace Sys2Proof.Machine

/-- The parts of State, one for each field. -/
inductive Part where
  | pending | mail | stalled | fenceWaiting | freeIx | flash | dram | cold | link | engine | index | alloc | ports
  | sessions | catalog | verify | ckpt | peers | power | timers | report
  deriving DecidableEq, Repr

/-- A part stands as it stood. -/
def Part.Same (p : Part) (s u : State) : Prop :=
  match p with
  | .pending => u.pending = s.pending
  | .mail => u.mail = s.mail
  | .stalled => u.stalled = s.stalled
  | .fenceWaiting => u.fenceWaiting = s.fenceWaiting
  | .freeIx => u.freeIx = s.freeIx
  | .flash => u.flash = s.flash
  | .dram => u.dram = s.dram
  | .cold => u.cold = s.cold
  | .link => u.link = s.link
  | .engine => u.engine = s.engine
  | .index => u.index = s.index
  | .alloc => u.alloc = s.alloc
  | .ports => u.ports = s.ports
  | .sessions => u.sessions = s.sessions
  | .catalog => u.catalog = s.catalog
  | .verify => u.verify = s.verify
  | .ckpt => u.ckpt = s.ckpt
  | .peers => u.peers = s.peers
  | .power => u.power = s.power
  | .timers => u.timers = s.timers
  | .report => u.report = s.report

/-- Every part not named stands as it stood: the frame of a command. -/
def ChangesOnly (ps : List Part) (s u : State) : Prop := ∀ p, p ∉ ps → p.Same s u

/-- The command completes in a state of which `P` holds. -/
def Completes (c : Instr) (s : State) (P : State → Prop) : Prop := ∃ u, exec c s = .next u ∧ P u

/-- No work of a block has to wait or is passed over: the station is not HALTED, no owner is fenced, no captured image is
being written and no work waits for a shadow slot (R135, R136, R162). -/
def AtEase (s : State) : Prop :=
  s.stalled = none ∧ s.power.station ≠ .halted ∧ s.ckpt.current = none ∧ s.ckpt.waiters = [] ∧
    s.sessions.fenced = false ∧ s.catalog.fenced = false ∧ s.catalog.fenceDue = false

/-- An expiry of a timer is due: one is pending, of the named stage where the timer has stages, and the timer is not held
(R183, R185). -/
def ExpiryDue (t : TimerNo) (stage : Stage) (s : State) : Prop :=
  (s.timers[t]).held = false ∧
    ∃ r rest, (s.timers[t]).pending = r :: rest ∧ (timerMode t = .twoStage → r.stage = stage)

/-- A timer has just been started at a count: it runs in its first stage, with no expiry pending (R181). -/
def TimerStarted (t : TimerNo) (count : Int) (u : State) : Prop :=
  (u.timers[t]).core.running = true ∧ (u.timers[t]).core.stage = .first ∧
    (u.timers[t]).core.remaining = clampCount count ∧ (u.timers[t]).pending = []

/-- A timer is stopped, with no expiry pending (R182). -/
def TimerStopped (t : TimerNo) (u : State) : Prop :=
  (u.timers[t]).core.running = false ∧ (u.timers[t]).core.remaining = 0 ∧ (u.timers[t]).pending = []

/-- Every timer but those named stands as it stood. -/
def OtherTimersSame (ts : List TimerNo) (s u : State) : Prop := ∀ t : TimerNo, t ∉ ts → u.timers[t] = s.timers[t]

/-- These frames, and no others, have been handed to the transmit queue: each joined, or waits with its producer (R191). -/
def Hands (fs : List TxFrame) (s u : State) : Prop :=
  u.link.tx = (handFrames fs s.link).tx ∧
    u.link.txWait.map (·.frames) = (handFrames fs s.link).txWait.map (·.frames)

/-- These messages, and no others, have been sent between the units (log 1). -/
def Sends (cs : List Instr) (s u : State) : Prop := u.mail = s.mail ++ cs.map Work.cmd

/-- A request has been answered by one REPLY (R190). -/
def Answers (h : ReqHdr) (c : Code) (body : List Byte) (more : Bool) (s u : State) : Prop :=
  Hands [replyFrameOf s h c body more] s u

/-- A message stands in the mail (log 1). -/
def Posted (c : Instr) (u : State) : Prop := Work.cmd c ∈ u.mail

/-- What is withdrawn as parking ends early, by the step in progress (R171). -/
def withdrawals (p : ParkStep) : List Instr :=
  match p with
  | .none => [.unhush]
  | .hush => [.unhush]
  | .save => [.unhush, .parkSaveWithdraw]
  | .park => [.unhush, .unpark 0, .unpark 1, .unpark 2, .unpark 3]
  | .final => []

/-- A doze is cancelled, or parking ends before its final step (R168, R171, R176): the station is AWAKE, DOZE_HOLD is stopped
and UNHUSH sent, or the steps of parking are withdrawn; SLEEP_DELAY and BEACON start, and PRESENCE is handed to the transmit
queue as it stands then. -/
def ReturnsAwake (queue : Link) (s u : State) : Prop :=
  u.power = { s.power with station := .awake, step := .none,
                           parkCancel := s.power.parkCancel || decide (s.power.station = .parking) } ∧
    (s.power.station = .dozing → TimerStopped dozeHoldTimer u ∧ Posted .unhush u) ∧
    (s.power.station = .parking → ∀ c ∈ withdrawals s.power.step, Posted c u) ∧
    TimerStarted sleepDelayTimer s.conf.sleepDelay u ∧ TimerStarted beaconTimer s.conf.presencePeriod u ∧
    Hands [presenceFrame [] s] { s with link := queue } u

/-- The message that tells a claimant its claim's outcome (R21). -/
def claimAnswer (c : Claim) (r : ClaimResult) : Instr :=
  match c.claimant with
  | .session i serial pos => .claimOutcome i serial pos c.id r
  | .fetch f serial pos => .fetchClaimOutcome f serial pos c.id r

/-- What R161 lays down of clocks, link and memory by the station state. -/
def clocksRight (p : Power) : Bool :=
  match p.station with
  | .asleep => !p.rxtOn && !p.pllOn && p.listener && p.selfRefresh
  | .waking => p.rxtOn && p.listener && p.selfRefresh
  | .halted => p.rxtOn && p.pllOn && !p.listener && !p.selfRefresh
  | .unconfigured => p.rxtOn && p.pllOn && !p.listener && !p.selfRefresh
  | .coldStart => p.rxtOn && p.pllOn && !p.listener && !p.selfRefresh
  | .awake => p.rxtOn && p.pllOn && !p.listener && !p.selfRefresh
  | .dozing => p.rxtOn && p.pllOn && !p.listener && !p.selfRefresh
  | .parking => p.rxtOn && p.pllOn && !p.listener && !p.selfRefresh

/-- The station's own invariant: clocks and link by R161; at most two latch entries (R173), and none but in WAKING, HALTED
and the final step of parking; a cold start in progress only in COLD_START (R162). -/
def StationInv (s : State) : Prop :=
  clocksRight s.power = true ∧ s.power.latch.length ≤ 2 ∧
    (s.power.latch ≠ [] →
      s.power.station = .waking ∨ s.power.station = .halted ∨
        (s.power.station = .parking ∧ s.power.step = .final)) ∧
    (s.cold ≠ .finished → s.power.station = .coldStart)

/-- What a disk command's requester does when it takes the final outcome leaves a state of which `P` holds (R53). -/
def OutcomeGives (d : DiskPort) (r : Requester) (res : DiskResult) (data : ReadData) (s : State) (P : State → Prop) :
    Prop := P (takeOutcome d r res data s)

/-- The chunk index: one entry to a position and to a print and length, positions rising, each a slot of the table or of its
overflow table (R17, R22). -/
def IndexInv (s : State) : Prop :=
  s.index.entries.Pairwise (fun a b => a.1 < b.1 ∧ a.2.id ≠ b.2.id) ∧
    ∀ e ∈ s.index.entries, e.1 < s.index.capacity + 65536

/-- The queues keep their bounds: 32 requests in the intake, 64 frames in the transmit queue, 8 own requests, 32 commands to a
port; a producer waits with a frame, and at a full transmit queue alone (R48, R189, R191, R192). -/
def QueueInv (s : State) : Prop :=
  s.link.intake.length ≤ 32 ∧ s.link.tx.length ≤ 64 ∧ s.link.outgoing.length ≤ 8 ∧
    (s.link.txWait ≠ [] → s.link.tx.length = 64) ∧ (∀ w ∈ s.link.txWait, w.frames ≠ []) ∧
    ∀ d : DiskPort, (s.ports.port[d]).queued ≤ 32

/-- Requests of the catch-up conversation that stand in the outgoing table or wait for it. -/
def catchupAsks (s : State) : Nat :=
  (s.link.outgoing.filter (fun e => e.asker = .catchup)).length +
    (s.link.askWait.filter (fun a => a.asker = .catchup)).length

/-- What leads to what in the catalog: a catch-up request has its conversation, and no second one stands beside it (R99); a
fetch is in hand in AWAKE alone, in HALTED, or saved and not yet abandoned in COLD_START (R102, R143, R165). -/
def LeadInv (s : State) : Prop :=
  catchupAsks s ≤ (if s.catalog.talk.isSome then 1 else 0) ∧
    (s.catalog.fetches.toList.any (·.isSome) = true →
      s.power.station = .awake ∨ s.power.station = .halted ∨ s.power.station = .coldStart)

end Sys2Proof.Machine
end

