-- ==== Sys2Proof/Certificates/Slice0/Obligations.lean ====
section
/-! DEFINITION. The statements for the provers: what the steps, the commands and the invariants of the HS4 are held to. -/

open Sys2Proof Sys2Proof.Machine

/-! ### Steps and invariants -/

/-- A step with a command in front of the queue is that command's effect on the queue's rest; no rule of the spec
names the queue (log 1). -/
def Obligations.StepRunsFrontCommand : Prop :=
  ∀ (c : Instr) (rest : List Instr) (s : State),
    step { s with pending := c :: rest } = exec c { s with pending := rest }

/-- With no command waiting, work that waits for a shadow slot goes on where it can; without such work a step delivers
the oldest message between the units, and idles without one (log 1, log 29). -/
def Obligations.IdleStepDeliversOldestMessage : Prop :=
  ∀ (s : State), s.pending = [] →
    (s.ckpt.waiters = [] →
      (s.mail = [] → step s = .next s) ∧
      (∀ c rest, s.mail = .cmd c :: rest → step s = exec c { s with mail := rest }) ∧
      (∀ d r res data rest, s.mail = .outcome d r res data :: rest →
        step s = .next (takeOutcome d r res data { s with mail := rest }))) ∧
    (∀ c t, s.ckpt.waiters = [.cmd c] → exec c { s with ckpt := { s.ckpt with waiters := [] } } = .next t →
      t.ckpt.waiters = [] → step s = .next t)

/-- No command changes the queue of commands waiting, and every command answers a next state (log 1, log 32). -/
def Obligations.CommandsLeaveTheQueue : Prop :=
  ∀ (c : Instr) (s : State), Completes c s (fun u => u.pending = s.pending)

/-- The state after reset meets the station's invariant. The state after reset meets the invariants of the index, the
queues and the catalog. -/
def Obligations.StationInvAtReset : Prop :=
  (StationInv State.reset) ∧
  (IndexInv State.reset ∧ QueueInv State.reset ∧ LeadInv State.reset)

/-- Every step keeps the station's invariant: clocks, link and self-refresh by the station state (R161), the wake
latch (R173), and cold start only in COLD_START (R162). -/
def Obligations.StationInvKept : Prop :=
  ∀ (s u : State), StationInv s → step s = .next u → StationInv u

/-- R162: no command but POWER_ON_RESET takes a station out of HALTED. -/
def Obligations.HaltedUntilPowerOn : Prop :=
  ∀ (c : Instr) (s : State), StationInv s → s.power.station = .halted → (∀ flash dram, c ≠ .powerOnReset flash dram) →
    Completes c s (fun u => u.power.station = .halted)

/-! ### Cold start -/

/-- POWER_ON_RESET (R17, R140, R196): a block that is not valid, or a flash that does not answer, leaves the station
UNCONFIGURED, with no table built and no memory sized, the index capacity at 0 until then (the model's choice, log 3);
with a valid one DRAM below 1 GiB, or that gives no answer,
halts the station for MEMORY, and else its class sets the index capacity, the values in force are the block's after
the clamps, and the engine is set up. The queue of commands stays (the model's choice, log 1). -/
def Obligations.PowerOnReadsTheFlash : Prop :=
  ∀ (flash : Option (List Byte)) (dram : Option Nat) (s : State),
    (blockValid ((flash.getD []).take 48) = false →
      Completes (.powerOnReset flash dram) s (fun u =>
        u.power.station = .unconfigured ∧ u.report.flags = 0 ∧ u.report.halt = .none ∧ u.pending = s.pending ∧
          ChangesOnly [.pending, .freeIx, .flash, .dram, .cold, .link, .power, .report] State.reset u)) ∧
    (∀ bs : List Byte, flash = some bs → blockValid (bs.take 48) = true →
      ((∀ n, dram = some n → n < 2 ^ 30) →
        Completes (.powerOnReset flash dram) s (fun u =>
          u.power.station = .halted ∧ u.report.halt = .memory ∧ flagSet .haltReason u = true ∧
            u.index.capacity = 0)) ∧
      (∀ n, dram = some n → 2 ^ 30 ≤ n →
        Completes (.powerOnReset flash dram) s (fun u =>
          u.power.station = .coldStart ∧ u.report.conf = confOf (bs.take 48) ∧
            u.index.capacity = (if n < 2 ^ 31 then 2 ^ 24 else if n < 2 ^ 32 then 2 ^ 25 else 2 ^ 26) ∧
            u.engine.table = byteTable (confOf (bs.take 48)).seed ∧
            u.engine.mult = (confOf (bs.take 48)).multiplier ∧
            u.engine.factor = windowFactor (confOf (bs.take 48)).multiplier ∧
            (flagSet .configClamped u = true ↔ confBytes (confOf (bs.take 48)) ≠ bs.take 44) ∧
            ChangesOnly [.pending, .freeIx, .flash, .dram, .link, .index, .engine, .report] State.reset u)))

/-- R1 and R2: entry i of the byte table is the generator's state after step i + 1, each step in its three parts
modulo 2^32; F is C^48 modulo 2^32. After a chunk's start (R5) and the bytes `bs`, the context holds their count,
their print, the last 48 of them in its delay line, and as H the sum of T[byte] x C^age over the delay line, the
newest of age 0 (R6, R8). The boundary test (R3, R7): for every class, never below min, by the leading zeros of H
within each band, which is H below a power of two, and always at max. -/
def Obligations.EngineStartValues : Prop :=
  ((∀ (seed : Word) (i : Nat), i < 256 →
     (byteTable seed)[i]? =
       some (Nat.rec (motive := fun _ => Word) seed
         (fun _ x =>
           let a := x ^^^ (x * 8192)
           let b := a ^^^ (a / 131072)
           b ^^^ (b * 32)) (i + 1))) ∧
   (∀ c : Word, (windowFactor c).toNat = c.toNat ^ 48 % 2 ^ 32)) ∧
  (∀ (e : Engine) (c : Context) (bs : List Byte), e.factor = windowFactor e.mult →
     let t := bs.foldl (fun c b => Context.absorb e c b) c.fresh
     t.len = bs.length ∧ t.hash.print = printOf bs ∧ t.delay = bs.drop (bs.length - 48) ∧
       t.sum = (t.delay.reverse.zipIdx.map (fun p => weight e p.1 * powerOf e.mult p.2)).sum ∧
       t.state = c.state ∧ t.serial = c.serial ∧ t.buffer = none) ∧
  (∀ (cls len : Nat) (h : Word), cls ≤ 3 →
     (len < 2 ^ (cls + 10) → cutsAt cls len h = false) ∧
     (2 ^ (cls + 10) ≤ len → len < 2 ^ (cls + 12) →
       (cutsAt cls len h = true ↔ h.toNat < 2 ^ (32 - (cls + 13)))) ∧
     (2 ^ (cls + 12) ≤ len → len < 2 ^ (cls + 13) →
       (cutsAt cls len h = true ↔ h.toNat < 2 ^ (32 - (cls + 11)))) ∧
     (2 ^ (cls + 13) ≤ len → len < 2 ^ (cls + 14) →
       (cutsAt cls len h = true ↔ h.toNat < 2 ^ (32 - (cls + 9)))) ∧
     (2 ^ (cls + 14) ≤ len → cutsAt cls len h = true))

/-- DISK_DETECT (R42): with no device the port is ABSENT, its label NONE and its capacity 0; a device gives STANDBY,
or SPINUP where the grant comes at once, and label UNREAD with the capacity it reports. -/
def Obligations.DetectSetsPort : Prop :=
  ∀ (d : DiskPort) (capacity : Option Nat) (s : State),
    s.power.station = .coldStart → s.cold = .ports → (s.ports.port[d]).detected = false → d ∉ s.ports.waiting →
    Completes (.diskDetect d capacity) s (fun u =>
      (u.ports.port[d]).detected = true ∧ (u.ports.port[d]).queue = [] ∧
      (capacity = none → (u.ports.port[d]).spin = .absent ∧ (u.ports.port[d]).label = .none ∧
        (u.ports.port[d]).capacity = 0) ∧
      (∀ n, capacity = some n → n ≤ 4294967295 →
        ((u.ports.port[d]).spin = .standby ∨ (u.ports.port[d]).spin = .spinup) ∧ (u.ports.port[d]).label = .unread ∧
          (u.ports.port[d]).capacity = n) ∧
      ChangesOnly [.ports, .mail] s u)

/-- ROOT_READ_START (R141): once every port has settled its label, both roots of each disk with an HS4 label are read,
each by one READ at META class. The image is chosen and loaded (R133, R141, R142): of two candidates the one of the
higher generation is read first, of equal ones the one of the lower port; with none, or none sound, the station halts
for NO_IMAGE; a sound image of more entries than DRAM holds halts it for DRAM_SMALL, and one that fits is loaded; what
a checkpoint writes is sound under its root. The label READ gives a port its label, BLANK for a block that holds none,
and leaves UNREAD where it fails; the last one lets the roots be read (R42). Members are matched by their labels in the
slot where the disk is found, with the whole data area free, of two disks of one member the one on the lower port, and
one that no disk matches stays MISSING in its slot, also beside a disk that became FAULTED before its label READ; where a
matched disk has that slot or its disk holds the slot empty, the one such member moves to the lowest slot that no member,
no such disk and no new disk has (R34, R35; the lower port, the slots and the FAULTED disk are the model's choices, log
35). A blank disk, or one of another
store or of a number the table lacks, becomes a new member under the highest number plus 1, its label written at META
class, one at a time (the model's choice, log 30); one whose label WRITE does not end DONE, or that would come past
number 255, is not taken, and its slot holds no member: one that stood MISSING there moves as above, or leaves the table
where no slot is left (the model's choice, log 35); with no label at all the store is created under the station's
own MAC (R34, R142). Cold start makes the store whole (R114, R143): no session and no fetch is left, no client's bytes
are reserved, no entry is WRITING or meets the conditions of removal, and the announced seq is the own counter's; a
store that has changed takes the start checkpoint, and one in which nothing was left to do is AWAKE at once. -/
def Obligations.RootReadsOffered : Prop :=
  (∀ (s : State), s.power.station = .coldStart → s.cold = .ports →
     (∀ d : DiskPort, labelSettled s.ports.port[d] = true) → (∃ d : DiskPort, (hs4Label d s).isSome) →
     Completes .rootReadStart s (fun u =>
       u.cold = .roots (2 * ((List.finRange 4).filter (fun d => (hs4Label d s).isSome)).length) [] ∧
       (∀ d : DiskPort, (hs4Label d s).isSome → ∀ half : Bool,
         Work.cmd (.commandOffer d
           { requester := .rootRead half, cls := .metadata, op := .read (if half then 786433 else 1) 1 }) ∈ u.mail) ∧
       ChangesOnly [.cold, .mail] s u)) ∧
  ((∀ (d : DiskPort) (half : Bool) (res : DiskResult) (data : ReadData) (s : State), AtEase s → res ≠ .done →
     (s.cold = .roots 1 [] →
       OutcomeGives d (.rootRead half) res data s (fun u =>
         u.power.station = .halted ∧ u.report.halt = .noImage ∧ flagSet .haltReason u = true)) ∧
     (∀ a b : FoundRoot, s.cold = .roots 1 [a, b] → 1 ≤ b.root.pageCount → b.root.pageCount ≤ 256 →
       a.root.generation < b.root.generation ∨ (a.root.generation = b.root.generation ∧ b.port < a.port) →
       OutcomeGives d (.rootRead half) res data s (fun u =>
         u.cold = .images [b, a] [b, a] 1 none false ∧
           Sends [.commandOffer b.port
             { requester := .imageRead, cls := .metadata,
               op := .read (rootBlock b.half + 1) b.root.pageCount }] s u ∧
           ChangesOnly [.cold, .mail] s u))) ∧
   (∀ (found : List FoundRoot) (r : FoundRoot) (i : Image) (s : State), AtEase s →
     s.power.station = .coldStart → s.cold = .images found [r] 1 none false →
     (imageSound r.root i = false →
       OutcomeGives r.port .imageRead .done (.pages i) s (fun u =>
         u.power.station = .halted ∧ u.report.halt = .noImage)) ∧
     (imageSound r.root i = true →
       (s.index.capacity < r.root.capacity →
         OutcomeGives r.port .imageRead .done (.pages i) s (fun u =>
           u.power.station = .halted ∧ u.report.halt = .dramSmall)) ∧
       (r.root.capacity ≤ s.index.capacity →
         OutcomeGives r.port .imageRead .done (.pages i) s (fun u =>
           (u.power.station = .coldStart ∨ u.power.station = .awake) ∧ u.alloc.store = i.store ∧
             u.ckpt.generation = r.root.generation ∧ u.catalog.ownCounter = i.ownCounter ∧
             u.cold ≠ .images found [r] 1 none false)))) ∧
   (∀ (g : Word) (number : Nat) (t : State),
     imageSound (rootFor g (imageForm t) number) (imageForm t) = true ∧
       rootValid { store := t.alloc.store, member := number } (rootFor g (imageForm t) number) = true)) ∧
  (∀ (changed : Bool) (s : State), AtEase s → s.power.station = .coldStart → s.ckpt.state = .idle →
     let u := makeWhole changed s
     u.sessions.table = Vector.replicate 4 none ∧ u.catalog.fetches = Vector.replicate 2 none ∧
       (∀ (i : Fin 16) (k : Client), u.sessions.clients[i] = some k → k.reserved = 0) ∧
       (∀ e ∈ u.index.entries, e.2.state ≠ .writing ∧ removable e.2 = false) ∧
       u.catalog.announced = s.catalog.ownCounter ∧ u.catalog.ownCounter = s.catalog.ownCounter ∧
       (changed = true →
         u.power.station = .coldStart ∧ u.cold = .starting ∧ u.ckpt.state = .fencing ∧ Posted .hold u ∧
           u.ckpt.current.any (fun c => .coldStart ∈ c.closers) = true) ∧
       (changed = false → s.sessions.table = Vector.replicate 4 none → s.catalog.fetches = Vector.replicate 2 none →
         (∀ (i : Fin 16) (k : Client), s.sessions.clients[i] = some k → k.reserved = 0) →
         (∀ e ∈ s.index.entries, e.2.state ≠ .writing ∧ removable e.2 = false) →
         u.power.station = .awake ∧ u.cold = .finished)) ∧
  (∀ (d : DiskPort) (res : DiskResult) (data : ReadData) (s : State), s.stalled = none →
     OutcomeGives d .labelRead res data s (fun u =>
       (∀ l : DiskLabel, res = .done → data = .label (some l) → (u.ports.port[d]).label = .hs4 l) ∧
         (res = .done → (∀ l : DiskLabel, data ≠ .label (some l)) → (u.ports.port[d]).label = .blank) ∧
         (res ≠ .done → (u.ports.port[d]).label = .unread) ∧
         u.ports.port[d] = { s.ports.port[d] with label := (u.ports.port[d]).label, labelDone := true } ∧
         (∀ e, e ≠ d → u.ports.port[e] = s.ports.port[e]) ∧
         (s.cold = .ports → (s.ports.port[d]).detected = true →
           ((∀ e : DiskPort, e ≠ d → labelSettled s.ports.port[e] = true) → Sends [.rootReadStart] s u) ∧
           (∀ e : DiskPort, e ≠ d → labelSettled s.ports.port[e] = false → u.mail = s.mail)) ∧
         ChangesOnly [.ports, .mail] s u)) ∧
  (∀ (loaded : List (Option Nat)) (s : State), loaded.length = 4 →
     let u := matchMembers loaded s
     let names := fun (d : DiskPort) (k : Nat) =>
       (s.ports.port[d]).label = .hs4 { store := s.alloc.store, member := k } ∧ 1572866 ≤ (s.ports.port[d]).capacity
     (∀ (d : DiskPort) (k : Nat), some k ∈ loaded → names d k → (∀ e, e < d → ¬ names e k) →
       u.alloc.members[d] =
         some { number := k,
                map := some { free := [(1572865, (s.ports.port[d]).capacity - 1572865)], cursor := 1572865,
                              last := (s.ports.port[d]).capacity - 1 } }) ∧
     (∀ (d : DiskPort) (k : Nat), loaded[d.val]? = some (some k) → (∀ e, ¬ names e k) →
       (∀ j, some j ∈ loaded → ¬ names d j) →
       (s.ports.port[d]).spin = .absent ∨
         (1572866 ≤ (s.ports.port[d]).capacity ∧
           ((s.ports.port[d]).label ≠ .unread ∨ (s.ports.port[d]).spin = .faulted)) →
       u.alloc.members[d] = some { number := k, map := none }) ∧
     (let kept := fun (p : DiskPort) =>
        (s.ports.port[p]).spin = .absent ∨
          (1572866 ≤ (s.ports.port[p]).capacity ∧
            ((s.ports.port[p]).label ≠ .unread ∨ (s.ports.port[p]).spin = .faulted))
      let matched := fun (p : DiskPort) => ∃ m, some m ∈ loaded ∧ names p m ∧ ∀ q, q < p → ¬ names q m
      let spare := fun (p : DiskPort) => ¬ matched p ∧ kept p ∧ p ∉ newDisks (loaded.filterMap id) s
      ∀ (d e : DiskPort) (k : Nat), loaded[d.val]? = some (some k) →
        (∀ p : DiskPort, loaded[p.val]? = some (some k) → p = d) → (∀ p, ¬ names p k) → matched d ∨ ¬ kept d →
        (∀ m, some m ∈ loaded → m ≠ k → ∃ p, names p m) → spare e → (∀ p, p < e → ¬ spare p) →
        u.alloc.members[e] = some { number := k, map := none }) ∧
     u.alloc.store = s.alloc.store ∧ u.alloc.highest = s.alloc.highest ∧ ChangesOnly [.alloc] s u) ∧
  (∀ (d : DiskPort) (s : State),
     let label := fun (e : DiskPort) (n : Nat) =>
       Instr.commandOffer e { requester := .labelWrite, cls := .metadata,
                              op := .write 0 1 (.label { store := s.alloc.store, member := n }) }
     let spare := fun (before : List (Option (Nat × Bool))) (e : DiskPort) =>
       e ≠ d ∧ s.alloc.members[e] = none ∧
         ((s.ports.port[e]).spin = .absent ∨
           (1572866 ≤ (s.ports.port[e]).capacity ∧
             ((s.ports.port[e]).label ≠ .unread ∨ (s.ports.port[e]).spin = .faulted))) ∧
         e ∉ newDisks (before.filterMap (fun m => m.map (·.1))) s
     let without := fun (before : List (Option (Nat × Bool))) (v : Vector (Option Member) 4) =>
       ((∀ k, s.alloc.members[d] ≠ some { number := k, map := none }) → v = s.alloc.members.set d.val none) ∧
         ∀ k, s.alloc.members[d] = some { number := k, map := none } →
           (∀ e : DiskPort, spare before e → (∀ p, p < e → ¬ spare before p) →
             v = (s.alloc.members.set d.val none).set e.val (some { number := k, map := none })) ∧
           ((∀ e, ¬ spare before e) → v = s.alloc.members.set d.val none)
     (∀ numbers : List Nat,
       d ∈ newDisks numbers s ↔
         1572866 ≤ (s.ports.port[d]).capacity ∧
           ((s.ports.port[d]).label = .blank ∨
             ∃ l, (s.ports.port[d]).label = .hs4 l ∧ (l.store ≠ s.alloc.store ∨ l.member ∉ numbers))) ∧
     (∀ (rest : List DiskPort) (fresh : Bool) (before : List (Option (Nat × Bool))),
       (s.alloc.highest < 255 →
         let u := joinNext (d :: rest) fresh before s
         u.cold = .joining (d :: rest) fresh before ∧ Sends [label d (s.alloc.highest + 1)] s u ∧
           ChangesOnly [.cold, .mail] s u) ∧
       (255 ≤ s.alloc.highest →
         ∃ v, without before v ∧
           joinNext (d :: rest) fresh before s =
             joinNext rest fresh before { s with alloc := { s.alloc with members := v } })) ∧
     (∀ (e : DiskPort) (rest : List DiskPort) (fresh : Bool) (before : List (Option (Nat × Bool))) (data : ReadData),
       s.stalled = none → s.cold = .joining (d :: e :: rest) fresh before → s.alloc.highest < 254 →
       OutcomeGives d .labelWrite .done data s (fun u =>
         u.alloc = { s.alloc with
             highest := s.alloc.highest + 1,
             members := s.alloc.members.set d.val
               (some { number := s.alloc.highest + 1,
                       map := some { free := [(1572865, (s.ports.port[d]).capacity - 1572865)], cursor := 1572865,
                                     last := (s.ports.port[d]).capacity - 1 } }) } ∧
           (u.ports.port[d]).label = .hs4 { store := s.alloc.store, member := s.alloc.highest + 1 } ∧
           (∀ p, p ≠ d → u.ports.port[p] = s.ports.port[p]) ∧
           u.cold = .joining (e :: rest) fresh before ∧ Sends [label e (s.alloc.highest + 2)] s u ∧
           ChangesOnly [.cold, .alloc, .ports, .mail] s u) ∧
       (∀ res : DiskResult, res ≠ .done →
         OutcomeGives d .labelWrite res data s (fun u =>
           without before u.alloc.members ∧ u.alloc = { s.alloc with members := u.alloc.members } ∧
             u.cold = .joining (e :: rest) fresh before ∧ Sends [label e (s.alloc.highest + 1)] s u ∧
             ChangesOnly [.cold, .alloc, .mail] s u))) ∧
     (s.power.station = .coldStart → s.cold = .ports → (∀ e : DiskPort, labelSettled s.ports.port[e] = true) →
       (∀ e : DiskPort, hs4Label e s = none) → (s.ports.port[d]).label = .blank →
       1572866 ≤ (s.ports.port[d]).capacity → s.alloc.highest < 255 →
       (∀ e, e < d → (s.ports.port[e]).label = .blank → (s.ports.port[e]).capacity < 1572866) →
       Completes .rootReadStart s (fun u =>
         u.alloc = { s.alloc with store := s.conf.mac } ∧
           (∃ rest, u.cold = .joining (d :: rest) true (List.replicate 4 none)) ∧
           Sends [.commandOffer d { requester := .labelWrite, cls := .metadata,
                                    op := .write 0 1 (.label { store := s.conf.mac,
                                                               member := s.alloc.highest + 1 }) }] s u ∧
           ChangesOnly [.cold, .alloc, .mail] s u)))

/-! ### The link unit -/

/-- INTAKE_ARRIVAL (R189): in AWAKE a validated request joins the end of a queue of fewer than 32, and meets BUSY at a
full one; either way SLEEP_DELAY restarts (R164) and no other unit's registers but the sender's peer entry change. The
request that joined is offered to its owner at once where it is one that is offered as it arrives or no earlier
request of its tag to that owner stands before it, and else waits its turn. In DOZING, and in PARKING before the final
step, it joins or meets BUSY alike, and the doze is cancelled or parking ends (R168, R171). -/
def Obligations.ArrivalJoinsOrMeetsBusy : Prop :=
  ∀ (f : RxFrame) (h : ReqHdr) (target : Tag) (more : Bool) (c : Instr) (s : State),
    s.link.up = true → validate s f = .good h target more (.request c) →
    (s.power.station = .awake →
      Completes (.intakeArrival f) s (fun u =>
        (s.link.intake.length < 32 →
          u.link.intake.map (·.cmd) = s.link.intake.map (·.cmd) ++ [c] ∧ u.link.tx = s.link.tx ∧
          ∀ (o : ReqOwner) (free : Bool), requestOwner c = some (h, o, free) →
            (free = true ∨
                (∀ j ∈ s.link.intake, ∀ r p, requestOwner j.cmd = some (r, o, p) → r.tag ≠ h.tag) →
              u.link.intake.getLast? = some { cmd := c, standing := .offered } ∧ Posted c u) ∧
            (∀ j ∈ s.link.intake, ∀ r p, free = false → requestOwner j.cmd = some (r, o, p) → r.tag = h.tag →
              u.link.intake.getLast? = some { cmd := c, standing := .queued })) ∧
        (32 ≤ s.link.intake.length →
          u.link.intake.map (·.cmd) = s.link.intake.map (·.cmd) ∧ Answers h .busy [] false s u) ∧
        TimerStarted sleepDelayTimer s.conf.sleepDelay u ∧ u.power = s.power ∧
        ChangesOnly [.link, .mail, .peers, .timers] s u)) ∧
    (s.power.station = .dozing ∨ (s.power.station = .parking ∧ s.power.step ≠ .final) →
      Completes (.intakeArrival f) s (fun u =>
        (s.link.intake.length < 32 →
          u.link.intake.map (·.cmd) = s.link.intake.map (·.cmd) ++ [c] ∧ ReturnsAwake s.link s u) ∧
        (32 ≤ s.link.intake.length →
          u.link.intake.map (·.cmd) = s.link.intake.map (·.cmd) ∧
            ReturnsAwake (handFrames [replyFrameOf s h .busy [] false] s.link) s u)))

/-- In HALTED a request of another block than configuration and report is answered HALTED with no body (R202). -/
def Obligations.HaltedAnswersHalted : Prop :=
  ∀ (f : RxFrame) (h : ReqHdr) (target : Tag) (more : Bool) (c : Instr) (s : State),
    s.link.up = true → s.power.station = .halted → validate s f = .good h target more (.request c) →
    ownedBy .report c = false →
    Completes (.intakeArrival f) s (fun u => Answers h .halted [] false s u ∧ ChangesOnly [.link] s u)

/-- OWNER_READY (R189): a deferred request of the owner is offered afresh, standing offered and posted to the owner,
where it is one that is offered as it arrives or no earlier request of its tag to that owner stands before it; else it
waits its turn, so that none stays deferred. The offers go out oldest first, and the queue's requests and their order
stay. -/
def Obligations.OwnerReadyOffersDeferred : Prop :=
  ∀ (o : ReqOwner) (s : State),
    Completes (.ownerReady o) s (fun u =>
      (∀ (before behind : List IntakeItem) (i : IntakeItem) (h : ReqHdr) (free : Bool),
        s.link.intake = before ++ i :: behind → i.standing = .deferred → requestOwner i.cmd = some (h, o, free) →
        (free = true ∨ (∀ j ∈ before, ∀ r p, requestOwner j.cmd = some (r, o, p) → r.tag ≠ h.tag) →
          u.link.intake[before.length]? = some { i with standing := .offered } ∧ Posted i.cmd u) ∧
        (∀ j ∈ before, ∀ r p, free = false → requestOwner j.cmd = some (r, o, p) → r.tag = h.tag →
          u.link.intake[before.length]? = some { i with standing := .queued })) ∧
      Sends (((s.link.intake.zip u.link.intake).filter (fun p =>
        decide (p.1.standing ≠ .offered) && decide (p.2.standing = .offered))).map (·.1.cmd)) s u ∧
      u.link.intake.map (·.cmd) = s.link.intake.map (·.cmd) ∧
      (∀ i ∈ u.link.intake, ownedBy o i.cmd = true → i.standing ≠ .deferred) ∧
      (∀ i ∈ u.link.intake, i.standing = .offered →
        (∀ j ∈ s.link.intake, j.cmd = i.cmd → j.standing ≠ .offered) → Posted i.cmd u) ∧
      u.link.tx = s.link.tx ∧ u.link.outgoing = s.link.outgoing ∧ ChangesOnly [.link, .mail] s u)

/-- TX_FRAME_SENT (R191): the head leaves and the oldest waiter's frame joins; with a waiter's last frame, the work
that depended on it goes on; an answer that brings a cold start brings it as it leaves (R199). A frame this station
lays out is heard by a station of its family with the same frame type as what it says (R186, R187, R190, R195): a
REPLY with its code, body and more flag, a DATA frame with its offset and bytes, and a GET_CHUNK by print. -/
def Obligations.FrameLeavesAndWaiterJoins : Prop :=
  (∀ (f : TxFrame) (rest : List TxFrame) (s : State), s.link.tx = f :: rest → s.link.tx.length ≤ 64 →
     (s.power.station ≠ .unconfigured ∨ f.restart = false →
       Completes .txFrameSent s (fun u =>
         (s.link.txWait = [] → u.link.tx = rest ∧ u.link.txWait = []) ∧
         (∀ w g gs waits, s.link.txWait = w :: waits → w.frames = g :: gs →
           u.link.tx.take (rest.length + 1) = rest ++ [g] ∧
             (gs = [] → u.link.txWait = waits ∧ ∀ d, w.deed = some d → Work.deed d ∈ u.mail)) ∧
         u.link.intake = s.link.intake ∧ u.link.outgoing = s.link.outgoing ∧ ChangesOnly [.link, .mail] s u)) ∧
     (s.power.station = .unconfigured → f.restart = true → Completes .txFrameSent s (fun u => u = coldStart s))) ∧
  (∀ (s t : State) (h : ReqHdr), s.power.station ≠ .unconfigured → t.power.station ≠ .unconfigured →
     t.conf.frameType = s.conf.frameType → t.conf.family = s.conf.family → t.conf.tag = h.tag → h.tag ≠ allStations →
     s.conf.tag ≠ 0 → s.conf.tag ≠ allStations →
     let heardFrom : ReqHdr := { tag := s.conf.tag, box := true, number := h.number, mac := s.conf.mac }
     let received := fun (f : TxFrame) =>
       ({ frameType := f.frameType, source := f.source, bytes := f.wire } : RxFrame)
     (∀ (c : Code) (body : List Byte) (more : Bool), body.length ≤ 1453 →
       validate t (received (replyFrameOf s h c body more)) = .good heardFrom h.tag more (.reply (codeByte c) body)) ∧
     (∀ (off : Nat) (bs : List Byte), off < 2 ^ 32 → bs ≠ [] → bs.length ≤ 1440 →
       validate t (received (frame s h.mac 0x71 0xC0 h.tag h.number (beBytes 4 off ++ bs))) =
         .good heardFrom h.tag false (.data off bs)) ∧
     (∀ id : ChunkId, id.length < 2 ^ 32 →
       validate t (received (frame s h.mac 0x31 0x80 h.tag h.number ([0x02] ++ elementBytes id))) =
         .good heardFrom h.tag false (.request (.getChunkPrint heardFrom id))))

/-- PHY_LINK_STATE (R191): the link state is noted and nothing else changes; while it is down no frame is received. -/
def Obligations.PhyStateIsNoted : Prop :=
  ∀ (up : Bool) (s : State),
    Completes (.phyLinkState up) s (fun u => u = { s with link := { s.link with up := up } }) ∧
    (s.link.up = false → ∀ f : RxFrame,
      exec (.intakeArrival f) s = .next s ∧ exec (.wake f) s = .next s ∧ exec (.listenerWake f) s = .next s ∧
        exec (.doze f) s = .next s ∧ exec (.presence f) s = .next s ∧ exec (.holding f) s = .next s ∧
        exec (.replyFrame f) s = .next s ∧ exec (.dataFrame f) s = .next s)

/-- DATA_FRAME (R193): matched to the only entry, a GET_CHUNK's, the entry stays with its deadline at now + 5,120 and
REPLY is set anew; matched to an entry of another kind it is discarded. -/
def Obligations.DataMovesTheDeadline : Prop :=
  ∀ (f : RxFrame) (h : ReqHdr) (target : Tag) (more : Bool) (off : Nat) (bytes : List Byte) (e : OutEntry) (s : State),
    s.link.up = true → s.power.station = .awake → AtEase s → validate s f = .good h target more (.data off bytes) →
    s.link.outgoing = [e] → e.number = h.number → e.target = h.tag →
    (∀ (k : FetchNo) (b : BufferNo) (x : Fetch) (el : FetchElem),
      e.kind = .getChunk → e.asker = .fetch k → s.catalog.fetches[k] = some x → x.buffer = some b →
      x.elems[x.next]? = some el → off = (s.engine.buffers[b]).bytes.length → off + bytes.length ≤ el.id.length →
      e.deadline ≠ s.link.ticks + 5120 →
      Completes (.dataFrame f) s (fun u =>
        u.link.outgoing = [{ e with deadline := s.link.ticks + 5120 }] ∧ TimerStarted replyTimer 5120 u ∧
          (u.engine.buffers[b]).bytes = (s.engine.buffers[b]).bytes ++ bytes ∧
          u.link.tx = s.link.tx ∧ ChangesOnly [.link, .peers, .timers, .engine] s u)) ∧
    (e.kind ≠ .getChunk →
      Completes (.dataFrame f) s (fun u => u.link = s.link ∧ ChangesOnly [.peers, .timers] s u))

/-- REPLY_TIMER_EXPIRY (R194): an expiry that finds no deadline reached restarts the timer for the earliest entry, and
one that finds the only entry's deadline reached frees it and gives its asker TIMEOUT: a catch-up conversation ends
(R99); a fetch fails, so that its buffer goes back, the references it holds are dropped, its photo is WANTED again,
due in 600 s, and its context is FREE (R107); a peer repair asks its next candidate, or, with none left, the DOUBTFUL
entry becomes LOST, the waiters are told DAMAGED and the record closes (R123). -/
def Obligations.ReplyExpiryFreesReached : Prop :=
  ∀ (e : OutEntry) (rest : List OutEntry) (s : State), ExpiryDue replyTimer .first s → AtEase s →
    s.link.outgoing = e :: rest →
    (2 ^ 31 ≤ (s.link.ticks - e.deadline).toNat →
      Completes .replyTimerExpiry s (fun u =>
        TimerStarted replyTimer (e.deadline - s.link.ticks).toInt u ∧ OtherTimersSame [replyTimer] s u ∧
          ChangesOnly [.timers] s u)) ∧
    ((s.link.ticks - e.deadline).toNat < 2 ^ 31 → rest = [] → e.asker = .catchup → s.link.askWait = [] →
      s.catalog.pending = [] →
      Completes .replyTimerExpiry s (fun u =>
        u.link.outgoing = [] ∧ u.catalog.talk = none ∧ TimerStopped replyTimer u ∧ u.link.tx = s.link.tx ∧
          OtherTimersSame [replyTimer] s u ∧ ChangesOnly [.link, .catalog, .timers] s u)) ∧
    ((s.link.ticks - e.deadline).toNat < 2 ^ 31 → rest = [] → s.link.askWait = [] → s.engine.order = [] →
      (∀ (k : FetchNo) (x : Fetch) (p : Photo), e.asker = .fetch k → s.power.station = .awake →
        s.catalog.fetches[k] = some x → s.catalog.photos[x.photo]? = some p → x.extent = .absent →
        s.catalog.wanted = [] → s.now.toNat + 600 < 2 ^ 32 →
        Completes .replyTimerExpiry s (fun u =>
          u.link.outgoing = [] ∧ u.link.tx = s.link.tx ∧ TimerStopped replyTimer u ∧ u.catalog.fetches[k] = none ∧
            u.catalog.photos = s.catalog.photos.set x.photo { p with state := .wanted } ∧
            u.catalog.wanted = [{ pos := x.photo, due := s.now + 600 }] ∧ TimerStarted wantedTimer 600 u ∧
            (∀ b, x.buffer = some b → u.engine.buffers[b] = { state := .free, bytes := [] }) ∧
            Sends ((x.elems.filter (fun y => y.standing = .settled || y.standing = .waiting)).map
              (fun y => Instr.drop y.id)) s u ∧
            ChangesOnly [.link, .catalog, .engine, .mail, .timers, .ckpt] s u)) ∧
      (∀ (t : RepairConversation) (r : RepairRecord) (b : BufferNo), e.asker = .repair → s.verify.talk = some t →
        s.verify.records = [r] → r.id = t.id → r.buffer = some b → s.verify.quietDue = false →
        (∀ (c : Tag) (cs : List Tag), t.candidates = c :: cs → heardOf c s = some .awake →
          Completes .replyTimerExpiry s (fun u =>
            u.verify = { s.verify with talk := some { id := t.id, candidates := cs, target := some c },
                                       records := [{ r with tried := r.tried ++ [c] }] } ∧
              u.engine.buffers[b] = { s.engine.buffers[b] with bytes := [] } ∧
              u.link.outgoing.map (·.target) = [c] ∧ u.link.outgoing.map (·.asker) = [.repair] ∧
              Hands [frame s (macFor c s) 0x31 0x80 c s.link.nextNumber
                ([0x02] ++ (beBytes 16 t.id.print.toNat ++ beBytes 4 t.id.length))] s u ∧
              TimerStarted replyTimer 5120 u ∧ ChangesOnly [.link, .verify, .engine, .timers] s u)) ∧
        (∀ (pos : Nat) (x : Entry), t.candidates = [] → s.verify.order = [] → findEntry t.id s = some (pos, x) →
          x.state = .doubtful →
          Completes .replyTimerExpiry s (fun u =>
            findEntry t.id u = some (pos, { x with state := .lost }) ∧ flagSet .lostSeen u = true ∧
              u.verify = { s.verify with talk := none, records := [] } ∧
              u.engine.buffers[b] = { state := .free, bytes := [] } ∧ u.link.outgoing = [] ∧
              u.link.tx = s.link.tx ∧ TimerStopped replyTimer u ∧
              Sends (r.waiters.map (fun w => Instr.vreadAnswer w.1 .damaged) ++
                (if r.hold then [.readEnd t.id] else [])) s u ∧
              ChangesOnly [.link, .verify, .index, .engine, .report, .mail, .timers, .ckpt] s u))))

/-! ### Timers -/

/-- TIMER_START (R181): the counts are clamped to 1..65,535 and pending expiries withdrawn. TIMER_STOP (R182, R184):
the timer stops at stage 1 with remaining 0. TIMER_EXTEND (R182): on a running timer with no expiry pending the
remaining count rises by n, saturating at 65,535; a stopped one keeps its record. No other timer changes, and a timer
held stays held. -/
def Obligations.TimerOperationsSetTheRecord : Prop :=
  ∀ (t : TimerNo) (s : State),
    (∀ count second : Int,
      Completes (.timerStart t count second) s (fun u =>
        TimerStarted t count u ∧ (u.timers[t]).held = (s.timers[t]).held ∧
        (timerMode t = .twoStage → (u.timers[t]).core.secondCount = clampCount second) ∧
        (timerMode t = .periodic → (u.timers[t]).core.reload = clampCount count) ∧
        (∀ n : Int, (n ≤ 0 → clampCount n = 1) ∧ (65535 < n → clampCount n = 65535) ∧
          (1 ≤ n → n ≤ 65535 → (clampCount n : Int) = n)) ∧
        OtherTimersSame [t] s u ∧ ChangesOnly [.timers] s u)) ∧
    Completes (.timerStop t) s (fun u =>
      TimerStopped t u ∧ (u.timers[t]).core.stage = .first ∧ (u.timers[t]).held = (s.timers[t]).held ∧
      OtherTimersSame [t] s u ∧ ChangesOnly [.timers] s u) ∧
    (∀ n : Nat, (s.timers[t]).pending = [] → 1 ≤ n →
      Completes (.timerExtend t n) s (fun u =>
        ((s.timers[t]).core.running = true →
          (u.timers[t]).core =
            { (s.timers[t]).core with remaining := min 65535 ((s.timers[t]).core.remaining + n) }) ∧
        ((s.timers[t]).core.running = false → u.timers[t] = s.timers[t]) ∧
        OtherTimersSame [t] s u ∧ ChangesOnly [.timers] s u))

/-- TIMER_TICK (R163, R180): one period of the tick source (the model's choice, log 17); every 32 periods a FINE tick,
every 32,768 one station second. Every timer of a base that ticks takes the tick, and its expiry is posted to its
owner; at a second's boundary a source whose restart has been watched to its end returns to SXT, and the fault ends
(R178); nothing else of the power unit changes. -/
def Obligations.TickCountsTheBases : Prop :=
  ∀ (s : State) (cycles : Nat) (back : Bool), cycles = (s.power.cycles + 1) % 32768 →
    back = (decide (cycles = 0) && s.power.sxtReturn) →
    Completes .timerTick s (fun u =>
      u.power = { s.power with
        cycles := cycles, seconds := if cycles = 0 then s.power.seconds + 1 else s.power.seconds,
        tickSource := if back then .sxt else s.power.tickSource, sxtFault := !back && s.power.sxtFault,
        sxtReturn := !back && s.power.sxtReturn } ∧
      u.link = { s.link with ticks := if cycles % 32 = 0 then s.link.ticks + 1 else s.link.ticks } ∧
      (∀ t : TimerNo,
        (timerBase t = .cycle ∨ (timerBase t = .fine ∧ cycles % 32 = 0) ∨ (timerBase t = .coarse ∧ cycles = 0) →
          u.timers[t] = ((s.timers[t]).tick (timerMode t)).1 ∧
            (((s.timers[t]).tick (timerMode t)).2 = true → Posted (expiryCommand t (s.timers[t]).core.stage) u)) ∧
        ((timerBase t = .fine ∧ cycles % 32 ≠ 0) ∨ (timerBase t = .coarse ∧ cycles ≠ 0) → u.timers[t] = s.timers[t])) ∧
      ChangesOnly [.power, .link, .timers, .mail] s u)

/-- R180, R183, R185: at a tick of its base a running timer that is not held counts down by 1, and at 0 it expires: its
record changes by its mode and stage, and the expiry joins the end of the pending ones with its restore point, the
record as it stood at 0, and goes to the timer's owner, saying which timer expired and, of a TWO_STAGE timer, which
stage ended. The owner takes the oldest first, and the expiry leaves the pending list. A held or stopped timer keeps
its record. -/
def Obligations.TimerCountsDown : Prop :=
  (∀ (t : TimerNo) (s : State),
    let r := s.timers[t]
    let zero := { r.core with remaining := 0 }
    let ends := fun (c : TimerCore) (u : State) =>
      u.timers[t] = { r with core := c, pending := r.pending ++ [zero] }
    (r.core.running = true → r.held = false → r.core.remaining = 1 →
      (timerMode t = .oneShot → ends { zero with running := false } (tickTimer t s)) ∧
      (timerMode t = .twoStage → r.core.stage = .first →
        ends { zero with stage := .second, remaining := zero.secondCount } (tickTimer t s)) ∧
      (timerMode t = .twoStage → r.core.stage = .second →
        ends { zero with running := false, stage := .first } (tickTimer t s)) ∧
      (timerMode t = .periodic → ends { zero with remaining := zero.reload } (tickTimer t s)) ∧
      Sends [expiryCommand t r.core.stage] s (tickTimer t s) ∧ OtherTimersSame [t] s (tickTimer t s) ∧
      ChangesOnly [.timers, .mail] s (tickTimer t s)) ∧
    (r.core.running = true → r.held = false → 2 ≤ r.core.remaining →
      (tickTimer t s).timers[t] = { r with core := { r.core with remaining := r.core.remaining - 1 } } ∧
        OtherTimersSame [t] s (tickTimer t s) ∧ ChangesOnly [.timers] s (tickTimer t s)) ∧
    (∀ (stage : Stage) (oldest : TimerCore) (later : List TimerCore), r.pending = oldest :: later → r.held = false →
      (timerMode t = .twoStage → oldest.stage = stage) →
      ∃ u, takeExpiry t stage s = some u ∧ u.timers[t] = { r with pending := later } ∧ OtherTimersSame [t] s u ∧
        ChangesOnly [.timers] s u) ∧
    (∀ stage : Stage, r.pending = [] → takeExpiry t stage s = none)) ∧
  (∀ stage : Stage,
    (∀ d : DiskPort, expiryCommand (diskIdleTimer d) stage = .diskIdleExpiry d) ∧
    (∀ i : SessionNo, expiryCommand (sessionIdleTimer i) stage = .sessionIdleExpiry i) ∧
    (∀ p : ProxyNo, expiryCommand (proxyTimer p) .first = .proxyStage1Expiry p ∧
      expiryCommand (proxyTimer p) .second = .proxyStage2Expiry p)) ∧
  ∀ (t : Timer),
    (t.core.running = true → t.held = false → 2 ≤ t.core.remaining → ∀ m,
      t.tick m = ({ t with core := { t.core with remaining := t.core.remaining - 1 } }, false)) ∧
    (t.core.running = true → t.held = false → t.core.remaining = 1 →
      (t.tick .oneShot).2 = true ∧ (t.tick .oneShot).1.core.running = false ∧
        (t.tick .oneShot).1.pending.length = t.pending.length + 1 ∧
        (t.tick .periodic).1.core.remaining = t.core.reload ∧ (t.tick .periodic).1.core.running = true ∧
        (t.core.stage = .first → (t.tick .twoStage).1.core.stage = .second ∧
          (t.tick .twoStage).1.core.remaining = t.core.secondCount)) ∧
    (t.core.running = false ∨ t.held = true → ∀ m, t.tick m = (t, false))

/-! ### Power and clocks -/

/-- SLEEP_DELAY expiry and a button press in AWAKE (R165, R166, R167): a passed sleep test brings DOZING, DOZE and
DOZE_HOLD at 2,048; a refused one keeps AWAKE and restarts SLEEP_DELAY. The test passes where, and only where, no
session is open, both fetch contexts are FREE, no request of this station is outstanding, no proxy slot is in use, no
retirement item is ready, no entry is being written or recopied, SXT has no fault, and another box is AWAKE or this
one may sleep last. -/
def Obligations.SleepTestDecides : Prop :=
  (∀ (c : Instr) (s : State), s.power.station = .awake →
    ((c = .sleepDelayExpiry ∧ ExpiryDue sleepDelayTimer .first s) ∨ c = .buttonPress) →
    Completes c s (fun u =>
      (sleepTest s = true →
        u.power.station = .dozing ∧ TimerStopped sleepDelayTimer u ∧ TimerStopped beaconTimer u ∧
          TimerStarted dozeHoldTimer 2048 u ∧ Hands [announceFrame s 0x02 (digestBytes (ownDigest s))] s u ∧
          OtherTimersSame [sleepDelayTimer, beaconTimer, dozeHoldTimer] s u ∧ ChangesOnly [.power, .timers, .link] s u) ∧
      (sleepTest s = false →
        TimerStarted sleepDelayTimer s.conf.sleepDelay u ∧ OtherTimersSame [sleepDelayTimer] s u ∧
          ChangesOnly [.timers] s u))) ∧
  (∀ s : State,
    (anotherBoxAwake s = false → s.conf.allowLastSleeper = false → sleepTest s = false) ∧
    (∀ i : SessionNo, s.sessions.table[i] ≠ none → sleepTest s = false) ∧
    (∀ f : FetchNo, s.catalog.fetches[f] ≠ none → sleepTest s = false) ∧
    (s.power.sxtFault = true → sleepTest s = false) ∧
    (∀ e, e ∈ s.index.entries → e.2.state = .writing → sleepTest s = false) ∧
    (sleepTest s = true ↔
      (∀ i : SessionNo, s.sessions.table[i] = none) ∧ (∀ f : FetchNo, s.catalog.fetches[f] = none) ∧
        s.link.outgoing = [] ∧ (∀ p : ProxyNo, s.peers.slots[p] = none) ∧ (∀ t ∈ s.sessions.retire, t.blocked = true) ∧
        (∀ e ∈ s.index.entries, e.2.state ≠ .writing ∧ e.2.recopy = none) ∧ s.power.sxtFault = false ∧
        ((∃ (i : Fin 32) (e : Peer), s.peers.table[i] = some e ∧ e.box = true ∧ e.heard = .awake) ∨
          s.conf.allowLastSleeper = true)))

/-- BUTTON_PRESS outside AWAKE (R166, R173): in ASLEEP it is latched and starts the wake sequence; in WAKING and in the
final step of parking it is latched, or sets WAKE_OVERRUN, before any WAKE still held in the receive buffer (the model's
choice, log 42); in DOZING it cancels the doze (R168): DOZE_HOLD stops, and
the station is AWAKE with PRESENCE, BEACON and SLEEP_DELAY; in PARKING before the final step parking ends, with the
steps begun withdrawn (R171); COLD_START, UNCONFIGURED and HALTED ignore it. -/
def Obligations.ButtonByState : Prop :=
  ∀ (s : State),
    (s.power.station = .asleep → s.power.latch = [] →
      Completes .buttonPress s (fun u =>
        u.power.station = .waking ∧ u.power.latch = [{ source := s.conf.tag, cause := 0 }] ∧ u.power.lockAttempt = 1 ∧
          u.power.rxtOn = true ∧ TimerStarted wakeStabTimer (stabCount s.conf.stabChoice) u ∧
          ChangesOnly [.power, .timers] s u)) ∧
    (s.power.station = .waking → 2 ≤ s.power.latch.length →
      Completes .buttonPress s (fun u => flagSet .wakeOverrun u = true ∧ ChangesOnly [.report] s u)) ∧
    (s.power.station = .waking → s.power.latch.length < 2 →
      Completes .buttonPress s (fun u =>
        u.power = { s.power with latch := s.power.latch ++ [{ source := s.conf.tag, cause := 0 }] } ∧
          ChangesOnly [.power] s u)) ∧
    (s.power.station = .dozing → s.stalled = none →
      Completes .buttonPress s (fun u =>
        u.power = { s.power with station := .awake, step := .none } ∧ TimerStopped dozeHoldTimer u ∧
          TimerStarted sleepDelayTimer s.conf.sleepDelay u ∧ TimerStarted beaconTimer s.conf.presencePeriod u ∧
          Hands [presenceFrame [] s] s u ∧ Work.cmd .unhush ∈ u.mail)) ∧
    (s.power.station = .parking →
      (s.power.step ≠ .final → Completes .buttonPress s (fun u => ReturnsAwake s.link s u)) ∧
      (s.power.step = .final →
        (s.power.latch.length < 2 →
          Completes .buttonPress s (fun u =>
            u.power = { s.power with latch := s.power.latch ++ [{ source := s.conf.tag, cause := 0 }] } ∧
              ChangesOnly [.power] s u)) ∧
        (2 ≤ s.power.latch.length →
          Completes .buttonPress s (fun u => flagSet .wakeOverrun u = true ∧ ChangesOnly [.report] s u)))) ∧
    (s.power.station = .coldStart ∨ s.power.station = .unconfigured ∨ s.power.station = .halted →
      exec .buttonPress s = .next s)

/-- Parking (R167, R170, R171): DOZE_HOLD's expiry begins it with HUSH; QUIET leads to SAVE, SAVED to PARK of all four
ports, sent in port order (the model's choice, log 46), the fourth PARKED to the final step; with parking cancel set
each of these answers is discarded. -/
def Obligations.ParkingGoesOn : Prop :=
  ∀ (s : State),
    (ExpiryDue dozeHoldTimer .first s → s.power.station = .dozing →
      Completes .dozeHoldExpiry s (fun u =>
        u.power = { s.power with station := .parking, step := .hush, parkCancel := false, parkedPorts := [] } ∧
          Sends [.hush] s u ∧ OtherTimersSame [dozeHoldTimer] s u ∧ ChangesOnly [.power, .mail, .timers] s u)) ∧
    (s.power.station = .parking → s.power.step = .hush → s.power.parkCancel = false →
      Completes .quiet s (fun u =>
        u.power = { s.power with step := .save } ∧ Sends [.parkSave] s u ∧ ChangesOnly [.power, .mail] s u)) ∧
    (s.power.station = .parking → s.power.step = .save → s.power.parkCancel = false →
      Completes .saved s (fun u =>
        u.power = { s.power with step := .park } ∧ Sends [.park 0, .park 1, .park 2, .park 3] s u ∧
          ChangesOnly [.power, .mail] s u)) ∧
    (∀ d : DiskPort, s.power.station = .parking → s.power.step = .park → s.power.parkCancel = false →
      s.power.parkedPorts.length = 3 → d ∉ s.power.parkedPorts →
      Completes (.parked d) s (fun u =>
        u.power = { s.power with step := .final, parkedPorts := s.power.parkedPorts ++ [d] } ∧
          (txEmpty s = true → Sends [.parkFinal] s u) ∧ ChangesOnly [.power, .mail] s u)) ∧
    (∀ d : DiskPort, s.power.parkCancel = true →
      exec .quiet s = .next s ∧ exec .saved s = .next s ∧ exec (.parked d) s = .next s)

/-- PARK_FAILED (R170, R171): parking ends early; every port is sent UNPARK, and the station is AWAKE with SLEEP_DELAY
at the sleep delay. -/
def Obligations.ParkFailedEndsParking : Prop :=
  ∀ (d : DiskPort) (s : State), s.power.station = .parking → s.power.step = .park → s.power.parkCancel = false →
    s.stalled = none →
    Completes (.parkFailed d) s (fun u =>
      u.power = { s.power with station := .awake, step := .none, parkCancel := true } ∧
        TimerStarted sleepDelayTimer s.conf.sleepDelay u ∧ Hands [presenceFrame [] s] s u ∧
        (∀ e : DiskPort, Work.cmd (.unpark e) ∈ u.mail) ∧ Work.cmd .unhush ∈ u.mail)

/-- PARK_FINAL (R172, R185): with the transmit queue empty and nothing latched or held, the intake queue is discarded,
RXT and the PLL stop, DRAM refreshes itself, the listener takes the link and asks the PHY for its lowest link speed, every
timer but WAKE_STAB is held, and the station is ASLEEP. -/
def Obligations.FinalStepSleeps : Prop :=
  ∀ (s : State), s.power.station = .parking → s.power.step = .final → s.link.tx = [] → s.link.txWait = [] →
    s.link.rxHeld = [] → s.power.latch = [] →
    Completes .parkFinal s (fun u =>
      u.power = { s.power with station := .asleep, step := .none, selfRefresh := true, rxtOn := false, pllOn := false,
                               listener := true } ∧
        u.link = { s.link with intake := [], speed := .lowest } ∧
        (∀ t : TimerNo, t ≠ wakeStabTimer → u.timers[t] = { s.timers[t] with held := true }) ∧
        u.timers[wakeStabTimer] = s.timers[wakeStabTimer] ∧ ChangesOnly [.power, .link, .timers] s u)

/-- LISTENER_WAKE (R173, R174): in ASLEEP a WAKE of the own family for the own tag or FFFFH is latched with its source
and reason and starts the wake sequence, the reason being the byte in that place whatever payload length the header
states (the model's choice, log 43); a frame of another kind is discarded without effect. -/
def Obligations.ListenerPassesWake : Prop :=
  ∀ (f : RxFrame) (s : State), s.link.up = true → s.power.station = .asleep → s.power.latch = [] →
    15 ≤ f.bytes.length → f.frameType = s.conf.frameType → BitVec.ofNat 32 (fieldAt f.bytes 0 4) = s.conf.family →
    (fieldAt f.bytes 8 2 = s.conf.tag.toNat ∨ fieldAt f.bytes 8 2 = 65535) →
    (f.bytes[4]? = some 0x03 →
      Completes (.listenerWake f) s (fun u =>
        u.power.station = .waking ∧
          u.power.latch = [{ source := BitVec.ofNat 16 (fieldAt f.bytes 6 2), cause := f.bytes.getD 14 0 }] ∧
          u.power.rxtOn = true ∧ TimerStarted wakeStabTimer (stabCount s.conf.stabChoice) u ∧
          ChangesOnly [.power, .timers] s u)) ∧
    (f.bytes[4]? ≠ some 0x03 → exec (.listenerWake f) s = .next s)

/-- WAKE_STAB expiries (R174): the first stage starts the PLL; the second fails the attempt: a second attempt from
step 1, or cold start, the queue of commands staying (the model's choice, log 1). -/
def Obligations.WakeStabExpiries : Prop :=
  ∀ (s : State), s.power.station = .waking →
    (ExpiryDue wakeStabTimer .first s →
      Completes .wakeStabStage1Expiry s (fun u =>
        u.power = { s.power with pllOn := true } ∧ OtherTimersSame [wakeStabTimer] s u ∧
          ChangesOnly [.power, .timers] s u)) ∧
    (ExpiryDue wakeStabTimer .second s → s.power.lockAttempt = 1 →
      Completes .wakeStabStage2Expiry s (fun u =>
        u.power = { s.power with lockAttempt := 2, rxtOn := true, pllOn := false } ∧
          TimerStarted wakeStabTimer (stabCount s.conf.stabChoice) u ∧
          (u.timers[wakeStabTimer]).core.secondCount = 1024 ∧ OtherTimersSame [wakeStabTimer] s u ∧
          ChangesOnly [.power, .timers] s u)) ∧
    (ExpiryDue wakeStabTimer .second s → s.power.lockAttempt = 2 →
      Completes .wakeStabStage2Expiry s (fun u =>
        (u.power.station = .coldStart ∨ u.power.station = .unconfigured ∨ u.power.station = .halted) ∧
          u.power.latch = [] ∧ u.power.seconds = 0 ∧ u.index.entries = [] ∧ u.pending = s.pending))

/-- PLL_LOCK (R175, R176): DRAM and link are taken back, the link at full speed with both queues empty, the PRESENCE
carries the latched causes before the latch is emptied, the timers are released, and the station is AWAKE; a lock report
with the PLL off is discarded. -/
def Obligations.LockWakesTheStation : Prop :=
  ∀ (s : State), s.power.station = .waking →
    (s.power.pllOn = true → s.stalled = none → s.power.latch.length ≤ 2 →
      Completes .pllLock s (fun u =>
        u.power.station = .awake ∧ u.power.latch = [] ∧ u.power.listener = false ∧ u.power.selfRefresh = false ∧
          u.link.intake = [] ∧ u.link.speed = .full ∧ u.link.tx = [presenceFrame s.power.latch s] ∧
          TimerStarted sleepDelayTimer s.conf.sleepDelay u ∧ (∀ t : TimerNo, (u.timers[t]).held = false) ∧
          Work.cmd .unhush ∈ u.mail)) ∧
    (s.power.pllOn = false → exec .pllLock s = .next s)

/-- The SXT fault (R178): judged stopped in AWAKE with a healthy source, the tick source is FALLBACK, the fault holds
with this second as the last attempt, and CLOCK_FAULT is set; 60 s later a restart is tried, and its result decides.
-/
def Obligations.SxtFaultAndRestart : Prop :=
  ∀ (s : State),
    (s.power.station = .awake → s.power.sxtFault = false →
      Completes .sxtStopDetected s (fun u =>
        u.power = { s.power with tickSource := .fallback, sxtFault := true, lastRestart := s.now, sxtOn := false,
                                 sxtWatched := false, sxtReturn := false } ∧
          u.report = { s.report with flags := s.report.flags ||| 0x01 } ∧ ChangesOnly [.power, .report] s u)) ∧
    (s.power.sxtFault = true → s.power.sxtWatched = false → s.power.sxtReturn = false →
      60 ≤ (s.now - s.power.lastRestart).toNat →
      Completes .sxtRestartAttempt s (fun u =>
        u.power = { s.power with sxtOn := true, sxtWatched := true, lastRestart := s.now } ∧
          ChangesOnly [.power] s u)) ∧
    (∀ ran : Bool, s.power.sxtWatched = true →
      Completes (.sxtRestartResult ran) s (fun u =>
        u.power = { s.power with sxtWatched := false, sxtReturn := ran, sxtOn := ran } ∧ ChangesOnly [.power] s u))

/-! ### Peers -/

/-- BEACON expiry (R152): in AWAKE with room in the transmit queue a PRESENCE leaves; with a full queue none is
handed. -/
def Obligations.BeaconSendsPresence : Prop :=
  ∀ (s : State), ExpiryDue beaconTimer .first s → s.power.station = .awake →
    Completes .beaconExpiry s (fun u =>
      (s.link.tx.length < 64 →
        u.link = { s.link with tx := s.link.tx ++ [presenceFrame [] s] } ∧ ChangesOnly [.link, .timers] s u) ∧
      (64 ≤ s.link.tx.length → ChangesOnly [.timers] s u) ∧ OtherTimersSame [beaconTimer] s u)

/-- SILENCE expiry (R150): an AWAKE peer not heard for three of its periods becomes SILENT, a box DOZING for 3 s or
more ASLEEP, and every other entry stands: a box DOZING for less, a DOZING entry that is no box's or has no DOZE
second, and those in another state. -/
def Obligations.SilenceJudgesPeers : Prop :=
  ∀ (i : Fin 32) (e : Peer) (s : State), ExpiryDue silenceTimer .first s → s.power.station ≠ .halted →
    s.peers.table[i] = some e →
    Completes .silenceExpiry s (fun u =>
      (e.heard = .awake → 3 * e.period ≤ (s.now - e.lastHeard).toNat →
        u.peers.table[i] = some { e with heard := .silent }) ∧
      (e.heard = .awake → (s.now - e.lastHeard).toNat < 3 * e.period → u.peers.table[i] = some e) ∧
      (∀ at0, e.heard = .dozing → e.box = true → e.dozeAt = some at0 → 3 ≤ (s.now - at0).toNat →
        u.peers.table[i] = some { e with heard := .asleep }) ∧
      (∀ at0, e.heard = .dozing → e.dozeAt = some at0 → (s.now - at0).toNat < 3 → u.peers.table[i] = some e) ∧
      (e.heard = .dozing → e.box = false ∨ e.dozeAt = none → u.peers.table[i] = some e) ∧
      (e.heard = .asleep ∨ e.heard = .silent ∨ e.heard = .unreachable → u.peers.table[i] = some e) ∧
      u.peers.slots = s.peers.slots ∧ ChangesOnly [.peers, .timers] s u)

/-- PROXY[p] expiries (R157, R158): after stage 1 one WAKE with reason PROXY leaves for the slot's target, which
waits; after stage 2 the target is UNREACHABLE, its digest discarded and the slot free. -/
def Obligations.ProxyWakesThenGivesUp : Prop :=
  ∀ (p : ProxyNo) (target : Tag) (i : Fin 32) (e : Peer) (s : State), s.power.station ≠ .halted →
    s.peers.slots[p] = some target → findPeer target s = some i → s.peers.table[i] = some e →
    (ExpiryDue (proxyTimer p) .first s →
      Completes (.proxyStage1Expiry p) s (fun u =>
        u.peers.table[i] = some { e with proxy := .waiting p } ∧ u.peers.slots = s.peers.slots ∧
          Hands [frame s broadcastMac 0x03 0x80 target 0 [0x01]] s u ∧ ChangesOnly [.peers, .link, .timers] s u)) ∧
    (ExpiryDue (proxyTimer p) .second s →
      Completes (.proxyStage2Expiry p) s (fun u =>
        u.peers.table[i] = some { e with heard := .unreachable, digest := none, dozeAt := none, proxy := .idle } ∧
          u.peers.slots[p] = none ∧ ChangesOnly [.peers, .timers] s u))

/-- PRESENCE and DOZE of a known peer box (R147, R148, R149): PRESENCE makes it AWAKE, with the stated period clamped
and its digest discarded; one whose newest origin seq is above the caught-up seq makes the box's origin entry where
there is room, puts it on the pending list of 32 once, and calls for a conversation where none is in progress (R98); a
seq above 65,536 is stored and handed on whole (the model's choice, log 42). DOZE makes it DOZING with the digest and
the second; in AWAKE it extends a running SLEEP_DELAY by the doze spread, up to 65,535 (R164); in DOZING it cancels the
own doze where no other box is awake, the last sleeper is not allowed, and its tag is below the own, and else the doze
goes on (R169). Behind work of the catalog that waits for a shadow slot, PRESENCE and HOLDING move the sender's entry at
once (R146), and what they hand to the catalog alone waits (log 6). -/
def Obligations.PresenceAndDozeMoveTheSender : Prop :=
  (∀ (f : RxFrame) (h : ReqHdr) (target : Tag) (more : Bool) (b : Body) (i : Fin 32) (e : Peer) (s : State),
    s.link.up = true → AtEase s → validate s f = .good h target more b → h.box = true →
    h.tag ≠ s.conf.tag → findPeer h.tag s = some i → s.peers.table[i] = some e → e.proxy = .idle →
    (∀ period seq, s.power.station = .awake → b = .presence period seq →
      Completes (.presence f) s (fun u =>
        u.peers.table[i] = some { e with mac := h.mac, box := true, heard := .awake, lastHeard := s.now,
                                         dozeAt := none, period := max 10 (min 120 period), newestSeq := seq,
                                         digest := none } ∧
          (∀ j, j ≠ i → u.peers.table[j] = s.peers.table[j]) ∧
          (seq ≤ caughtUp h.tag s → ChangesOnly [.peers] s u) ∧
          (caughtUp h.tag s < seq →
            let listed := if h.tag ∈ s.catalog.pending ∨ 32 ≤ s.catalog.pending.length then s.catalog.pending
              else s.catalog.pending ++ [h.tag]
            ((findOrigin h.tag s).isSome →
              u.catalog = { s.catalog with pending := listed } ∧ ChangesOnly [.peers, .catalog, .mail] s u) ∧
            (findOrigin h.tag s = none → s.catalog.origins.length < 32 →
              u.catalog = { s.catalog with origins := s.catalog.origins ++ [{ tag := h.tag, caughtUp := 0 }],
                                           pending := listed } ∧
                ChangesOnly [.peers, .catalog, .mail, .ckpt, .timers] s u) ∧
            (findOrigin h.tag s = none → 32 ≤ s.catalog.origins.length →
              u.catalog = s.catalog ∧ ChangesOnly [.peers, .mail] s u) ∧
            Sends (if s.catalog.talk.isNone ∧ u.catalog.pending ≠ [] then [.catchupStart] else []) s u))) ∧
    (∀ digest, b = .doze digest → s.power.station = .awake ∨ s.power.station = .dozing →
      Completes (.doze f) s (fun u =>
        u.peers.table[i] = some { e with mac := h.mac, box := true, heard := .dozing, lastHeard := s.now,
                                         dozeAt := some s.now, digest := some digest } ∧
          (∀ j, j ≠ i → u.peers.table[j] = s.peers.table[j]) ∧
          (s.power.station = .awake →
            ((s.timers[sleepDelayTimer]).pending = [] → 1 ≤ s.conf.dozeSpread →
              ((s.timers[sleepDelayTimer]).core.running = true →
                (u.timers[sleepDelayTimer]).core =
                  { (s.timers[sleepDelayTimer]).core with
                    remaining := min 65535 ((s.timers[sleepDelayTimer]).core.remaining + s.conf.dozeSpread) }) ∧
              ((s.timers[sleepDelayTimer]).core.running = false →
                u.timers[sleepDelayTimer] = s.timers[sleepDelayTimer])) ∧
            OtherTimersSame [sleepDelayTimer] s u ∧ ChangesOnly [.peers, .timers] s u) ∧
          (s.power.station = .dozing →
            (s.conf.allowLastSleeper = false → h.tag < s.conf.tag →
              (∀ j x, j ≠ i → s.peers.table[j] = some x → x.box = true → x.heard ≠ .awake) →
              ReturnsAwake s.link s u) ∧
            (s.conf.allowLastSleeper = true ∨ ¬ h.tag < s.conf.tag → ChangesOnly [.peers] s u) ∧
            (∀ j x, j ≠ i → s.peers.table[j] = some x → x.box = true → x.heard = .awake →
              ChangesOnly [.peers] s u))))) ∧
    (∀ (f : RxFrame) (h : ReqHdr) (target : Tag) (more : Bool) (b : Body) (i : Fin 32) (e : Peer) (w : Work) (s : State),
      s.link.up = true → s.power.station = .awake → validate s f = .good h target more b → h.box = true →
      h.tag ≠ s.conf.tag → findPeer h.tag s = some i → s.peers.table[i] = some e → e.proxy = .idle →
      w ∈ s.ckpt.waiters → unitOf w = .catalog →
      (∀ period seq, b = .presence period seq →
        Completes (.presence f) s (fun u =>
          u.peers.table[i] = some { e with mac := h.mac, box := true, heard := .awake, lastHeard := s.now,
                                           dozeAt := none, period := max 10 (min 120 period), newestSeq := seq,
                                           digest := none } ∧
            (∀ j, j ≠ i → u.peers.table[j] = s.peers.table[j]) ∧
            u.ckpt = { s.ckpt with waiters := s.ckpt.waiters ++ [.heard (.seq h seq)] } ∧
            ChangesOnly [.peers, .ckpt] s u)) ∧
      (∀ ms, b = .holding ms →
        Completes (.holding f) s (fun u =>
          u.peers.table[i] =
              some { e with mac := h.mac, box := true, lastHeard := s.now,
                            heard := if e.heard = .dozing ∨ e.heard = .asleep then e.heard else .awake } ∧
            (∀ j, j ≠ i → u.peers.table[j] = s.peers.table[j]) ∧
            u.ckpt = { s.ckpt with waiters := s.ckpt.waiters ++ [.heard (.holding h ms)] } ∧
            ChangesOnly [.peers, .ckpt] s u)))

/-- WAKE (R156, R159, R177): one for this station restarts SLEEP_DELAY in AWAKE; one for another station ends that
target's slot in WAKE_DELAY; the target's own entry otherwise stands. One for FFFFH does both: every slot in
WAKE_DELAY ends, and SLEEP_DELAY restarts. In DOZING and in PARKING before the final step one for this station or for
FFFFH cancels the doze or ends parking (R168, R171); COLD_START, UNCONFIGURED and HALTED take no notice. -/
def Obligations.WakeHeardFromTheLan : Prop :=
  ∀ (f : RxFrame) (h : ReqHdr) (target : Tag) (more : Bool) (reason : Byte) (s : State),
    s.link.up = true → validate s f = .good h target more (.wake reason) → h.tag ≠ s.conf.tag →
    (s.power.station = .coldStart ∨ s.power.station = .unconfigured ∨ s.power.station = .halted →
      exec (.wake f) s = .next s) ∧
    (s.power.station = .dozing ∨ (s.power.station = .parking ∧ s.power.step ≠ .final) →
      target = s.conf.tag ∨ target = allStations →
      Completes (.wake f) s (fun u => ReturnsAwake s.link s u)) ∧
    (s.power.station = .awake → target = allStations → s.conf.tag ≠ allStations → (findPeer h.tag s).isSome →
      Completes (.wake f) s (fun u =>
        TimerStarted sleepDelayTimer s.conf.sleepDelay u ∧
          (∀ (i : Fin 32) (p : ProxyNo) (e : Peer),
            findPeer e.tag s = some i → s.peers.table[i] = some e → e.proxy = .delay p →
            u.peers.slots[p] = none ∧ (e.tag ≠ h.tag → u.peers.table[i] = some { e with proxy := .idle })) ∧
          u.power = s.power ∧ u.link = s.link ∧ ChangesOnly [.peers, .timers] s u)) ∧
    (s.power.station = .awake → target = s.conf.tag →
      Completes (.wake f) s (fun u =>
        TimerStarted sleepDelayTimer s.conf.sleepDelay u ∧ u.power = s.power ∧ u.link = s.link ∧
          ChangesOnly [.peers, .timers] s u)) ∧
    (s.power.station = .awake → target ≠ s.conf.tag → target ≠ allStations → (findPeer h.tag s).isSome →
      target ≠ h.tag →
      Completes (.wake f) s (fun u =>
        (∀ (i : Fin 32) (p : ProxyNo) (e : Peer),
          findPeer target s = some i → s.peers.table[i] = some e → e.proxy = .delay p →
          u.peers.slots[p] = none ∧ u.peers.table[i] = some { e with proxy := .idle }) ∧
        u.power = s.power ∧ u.link = s.link ∧ ChangesOnly [.peers, .timers] s u))

/-! ### The chunk engine and the chunk index -/

/-- CTX_BIND, CTX_OPEN, CTX_DISCARD and CTX_UNBIND (R4, R5, R14): the context's state moves as R4's table says, a
chunk's start is clear, a lent buffer goes back to the pool, a STALLED context leaves the pool's order and drops what
is left of its segment, and no other context changes. In HALTED they act alike (the model's choice, log 42). -/
def Obligations.ContextRequestsMoveTheContext : Prop :=
  ∀ (i : SessionNo) (s : State), s.stalled = none → s.ckpt.waiters = [] →
    ((s.engine.ctx[i]).state = .free →
      Completes (.ctxBind i) s (fun u =>
        u.engine.ctx[i] = { Context.reset with state := .ready } ∧ (∀ j, j ≠ i → u.engine.ctx[j] = s.engine.ctx[j]) ∧
          ChangesOnly [.engine] s u)) ∧
    (∀ serial : Word, (s.engine.ctx[i]).state = .ready →
      Completes (.ctxOpen i serial) s (fun u =>
        u.engine.ctx[i] = { s.engine.ctx[i] with state := .cutting, serial := serial, sum := 0, delay := [], len := 0,
                                                 hash := RunningPrint.start, buffer := none } ∧
          (∀ j, j ≠ i → u.engine.ctx[j] = s.engine.ctx[j]) ∧ ChangesOnly [.engine] s u)) ∧
    (∀ b : BufferNo, (s.engine.ctx[i]).state = .cutting → (s.engine.ctx[i]).buffer = some b → s.engine.order = [] →
      Completes (.ctxDiscard i) s (fun u =>
        (u.engine.ctx[i]).state = .ready ∧ (u.engine.ctx[i]).buffer = none ∧ (u.engine.ctx[i]).len = 0 ∧
          u.engine.buffers[b] = { state := .free, bytes := [] } ∧
          (∀ j, j ≠ i → u.engine.ctx[j] = s.engine.ctx[j]) ∧ ChangesOnly [.engine] s u) ∧
      Completes (.ctxUnbind i) s (fun u =>
        u.engine.ctx[i] = Context.reset ∧ u.engine.buffers[b] = { state := .free, bytes := [] } ∧
          (∀ j, j ≠ i → u.engine.ctx[j] = s.engine.ctx[j]) ∧ ChangesOnly [.engine] s u)) ∧
    ((s.engine.ctx[i]).state = .cutting ∨ (s.engine.ctx[i]).state = .stalled → (s.engine.ctx[i]).buffer = none →
      Completes (.ctxDiscard i) s (fun u =>
        u.engine = { s.engine with
          ctx := s.engine.ctx.set i.val
            { s.engine.ctx[i] with state := .ready, sum := 0, delay := [], len := 0, hash := RunningPrint.start,
                                   buffer := none, remainder := [] },
          order := s.engine.order.filter (fun w => decide (w ≠ .context i)) } ∧ ChangesOnly [.engine] s u) ∧
      Completes (.ctxUnbind i) s (fun u =>
        u.engine = { s.engine with
          ctx := s.engine.ctx.set i.val Context.reset,
          order := s.engine.order.filter (fun w => decide (w ≠ .context i)) } ∧ ChangesOnly [.engine] s u)) ∧
    ((s.engine.ctx[i]).state = .ready →
      Completes (.ctxUnbind i) s (fun u =>
        u.engine = { s.engine with ctx := s.engine.ctx.set i.val Context.reset } ∧ ChangesOnly [.engine] s u))

/-- CTX_ENTER, CTX_END and BUFFER_GRANT (R6, R11, R12, R13): a byte that makes no cut goes to the buffer, the print
and the sum; with the pool empty the context stalls before it and holds the remainder; a granted buffer resumes it;
the end of an object with no open chunk reports "object cut". A cut (R7, R9, R11): the byte at which the test says so
ends the chunk, and so does CTX_END where a chunk is open. The element joins the object's recipe, the claim goes to
the index with the buffer and the copies the session wants, and the context starts its next chunk; then the segment is
reported entered, or the object cut. -/
def Obligations.BytesEnterOrTheContextStalls : Prop :=
  (∀ (i : SessionNo) (x : Byte) (c : Context) (s : State), AtEase s → s.engine.ctx[i] = c →
     (∀ b : BufferNo, c.state = .cutting → c.buffer = some b →
       cutsAt s.engine.chunkClass (c.len + 1) (rollSum s.engine c x) = false →
       Completes (.ctxEnter i [x]) s (fun u =>
         u.engine.ctx[i] = c.absorb s.engine x ∧ (u.engine.buffers[b]).bytes = (s.engine.buffers[b]).bytes ++ [x] ∧
           Sends [.segmentEntered i c.serial] s u ∧ ChangesOnly [.engine, .mail] s u)) ∧
     (∀ xs : List Byte, c.state = .cutting → c.buffer = none → freeBuffer s = none →
       Completes (.ctxEnter i (x :: xs)) s (fun u =>
         u.engine.ctx[i] = { c with state := .stalled, remainder := x :: xs } ∧ Borrower.context i ∈ u.engine.order ∧
           u.engine.buffers = s.engine.buffers ∧ ChangesOnly [.engine] s u)) ∧
     (∀ (b : BufferNo) (rest : List Borrower), c.state = .stalled → c.remainder = [x] → s.verify.quietDue = false →
       (s.engine.buffers[b]).state = .granting → s.engine.order = .context i :: rest →
       cutsAt s.engine.chunkClass (c.len + 1) (rollSum s.engine c x) = false →
       Completes (.bufferGrant b) s (fun u =>
         u.engine.ctx[i] = Context.absorb s.engine { c with state := .cutting, buffer := some b, remainder := [] } x ∧
           u.engine.buffers[b] = { state := .lent (.context i), bytes := [x] } ∧ u.engine.order = rest ∧
           Sends [.segmentEntered i c.serial] s u ∧ ChangesOnly [.engine, .mail] s u)) ∧
     (c.state = .cutting → c.buffer = none →
       Completes (.ctxEnd i) s (fun u =>
         u.engine.ctx[i] = { c with state := .ready } ∧ Sends [.objectCut i c.serial] s u ∧
           ChangesOnly [.engine, .mail] s u))) ∧
  (∀ (i : SessionNo) (b : BufferNo) (c : Context) (x : Session) (o : CurrentObject) (s : State), AtEase s →
     s.engine.ctx[i] = c → c.state = .cutting → c.buffer = some b → s.sessions.table[i] = some x →
     x.current = some o → o.serial = c.serial → slotFree s = true → isBackup x = true ∨ o.photo.isSome = true →
     (∀ y : Byte, cutsAt s.engine.chunkClass (c.len + 1) (rollSum s.engine c y) = true →
       Completes (.ctxEnter i [y]) s (fun u =>
         let t := c.absorb s.engine y
         let id : ChunkId := { print := t.hash.print, length := c.len + 1 }
         u.engine.ctx[i] = t.fresh ∧ (∀ j, j ≠ i → u.engine.ctx[j] = s.engine.ctx[j]) ∧
           u.engine.buffers[b] = { state := .lent .index, bytes := (s.engine.buffers[b]).bytes ++ [y] } ∧
           u.sessions.table[i] =
             some { x with current := some { o with elems := o.elems ++ [{ id := id, standing := .unrecorded }] } } ∧
           Sends [.claim { id := id, wanted := if isBackup x then .one else .two,
                           claimant := .session i c.serial o.elems.length, buffer := some b },
                  .segmentEntered i c.serial] s u ∧
           ChangesOnly [.engine, .sessions, .mail, .ckpt, .timers] s u)) ∧
     (0 < c.len →
       Completes (.ctxEnd i) s (fun u =>
         let id : ChunkId := { print := c.hash.print, length := c.len }
         u.engine.ctx[i] = { c.fresh with state := .ready } ∧
           (∀ j, j ≠ i → u.engine.ctx[j] = s.engine.ctx[j]) ∧
           u.engine.buffers[b] = { state := .lent .index, bytes := (s.engine.buffers[b]).bytes } ∧
           u.sessions.table[i] =
             some { x with current := some { o with elems := o.elems ++ [{ id := id, standing := .unrecorded }] } } ∧
           Sends [.claim { id := id, wanted := if isBackup x then .one else .two,
                           claimant := .session i c.serial o.elems.length, buffer := some b },
                  .objectCut i c.serial] s u ∧
           ChangesOnly [.engine, .sessions, .mail, .ckpt, .timers] s u)))

/-- CLAIM (R9, R21, R22, R26, R31, R135), of a chunk of any length (the model's choice, log 33): during a HOLD it is
kept; a STORED entry is a HIT and a WRITING one a HIT unsettled, each with one more reference, pinned at 65,535, a
buffer presented going back; without bytes there is NEEDS_BYTES; a DOUBTFUL or LOST entry takes bytes as a REVIVE, its
old copies kept until the settle; with bytes and no entry there is a MISS with a new entry at count 1, or INDEX_FULL.
On a MISS (R28) one copy is placed, or two on different members where two are wanted, each with one WRITE at STORE
class that carries the buffer, which the index keeps; with a place for one of two the second is abandoned, and with
none the entry settles at once, LOST for NO_SPACE, reported to its three receivers in an order of the model's (log 46). -/
def Obligations.ClaimHasItsOutcome : Prop :=
  ∀ (c : Claim) (s : State), AtEase s →
    (s.index.holding = true →
      Completes (.claim c) s (fun u => u.index = { s.index with kept := s.index.kept ++ [c] } ∧
        ChangesOnly [.index] s u)) ∧
    (s.index.holding = false →
      (∀ (pos : Nat) (e : Entry), findEntry c.id s = some (pos, e) → c.buffer = none →
        e.state = .stored ∨ e.state = .writing →
        Completes (.claim c) s (fun u =>
          findEntry c.id u = some (pos, { e with count := min 65535 (e.count + 1) }) ∧
            Sends [claimAnswer c (if e.state = .stored then .hit else .hitUnsettled)] s u ∧
            ChangesOnly [.index, .mail, .ckpt, .timers] s u)) ∧
      (∀ (pos : Nat) (e : Entry) (b : BufferNo), findEntry c.id s = some (pos, e) → c.buffer = some b →
        e.state = .stored ∨ e.state = .writing →
        Completes (.claim c) s (fun u =>
          findEntry c.id u = some (pos, { e with count := min 65535 (e.count + 1) }) ∧
            Posted (claimAnswer c (if e.state = .stored then .hit else .hitUnsettled)) u ∧
            (s.engine.order = [] → u.engine.buffers[b] = { state := .free, bytes := [] }) ∧
            (s.engine.order ≠ [] → Posted (.bufferGrant b) u) ∧
            ChangesOnly [.index, .engine, .mail, .ckpt, .timers] s u)) ∧
      (∀ (pos : Nat) (e : Entry) (b : BufferNo), findEntry c.id s = some (pos, e) → entryAt pos s = some e →
        c.buffer = some b → e.state = .doubtful ∨ e.state = .lost →
        Completes (.claim c) s (fun u =>
          Posted (claimAnswer c .revive) u ∧
            (∃ e', findEntry c.id u = some (pos, e') ∧ e'.count = min 65535 (e.count + 1) ∧ e'.mark = e.mark ∧
              (e'.state = .writing ∨ e'.state = .lost) ∧
              (e'.state = .writing → ∃ w, e'.write = some w ∧ w.buffer = b ∧ w.oldA = e.copyA ∧ w.oldB = e.copyB ∧
                w.prior = some e.state ∧ w.wanted = if e.mark then .two else c.wanted)) ∧
            ChangesOnly [.index, .report, .alloc, .engine, .verify, .mail, .ckpt, .timers] s u)) ∧
      (c.buffer = none → (∀ pos e, findEntry c.id s = some (pos, e) → e.state = .doubtful ∨ e.state = .lost) →
        Completes (.claim c) s (fun u => Sends [claimAnswer c .needsBytes] s u ∧ ChangesOnly [.mail] s u)) ∧
      (∀ b : BufferNo, c.buffer = some b → findEntry c.id s = none → emptySlot c.id.print s = none →
        Completes (.claim c) s (fun u =>
          Posted (claimAnswer c .indexFull) u ∧ u.index = s.index ∧
            (s.engine.order = [] → u.engine.buffers[b] = { state := .free, bytes := [] }) ∧
            ChangesOnly [.engine, .mail] s u)) ∧
      (∀ (b : BufferNo) (pos : Nat), c.buffer = some b → findEntry c.id s = none →
        emptySlot c.id.print s = some pos → (∀ e ∈ s.index.entries, e.1 ≠ pos) →
        Completes (.claim c) s (fun u =>
          Posted (claimAnswer c .miss) u ∧
            ∃ e, findEntry c.id u = some (pos, e) ∧ e.count = 1 ∧ e.mark = false ∧
              (e.state = .writing ∨ e.state = .lost))) ∧
      (∀ (b : BufferNo) (pos n : Nat), c.buffer = some b → findEntry c.id s = none →
        emptySlot c.id.print s = some pos → (∀ e ∈ s.index.entries, e.1 ≠ pos) → n = (c.id.length + 4095) / 4096 →
        let entry := fun (st : EntryState) (w : Option WriteRec) =>
          ({ id := c.id, state := st, mark := false, count := 1, copyA := none, copyB := none, write := w, holds := 0,
             recopy := none, released := [] } : Entry)
        let record := fun (a b' : NewCopy) (refused : Bool) =>
          some ({ buffer := b, wanted := c.wanted, newA := a, newB := b', oldA := none, oldB := none, prior := none,
                  issued := true, refused := refused } : WriteRec)
        let write := fun (side : CopySide) (q : Place) =>
          ({ requester := .chunkWrite c.id side, cls := .store,
             op := .write q.first n (.buffer b c.id.length (n * 4096 - c.id.length)) } : DiskCmd)
        let lent := { s.engine.buffers[b] with state := BufferState.lent .index }
        (∀ (d : DiskPort) (k a : Nat) (m : BlockMap), c.wanted = .one → choosePlace n [] s = some d →
          s.alloc.members[d] = some { number := k, map := some m } → m.search n = some a → slotOf k s = some d →
          Completes (.claim c) s (fun u =>
            findEntry c.id u =
                some (pos, entry .writing (record (.inWrite { member := k, first := a } false) .unwanted false)) ∧
              u.alloc = { s.alloc with
                members := s.alloc.members.set d.val (some { number := k, map := some (m.take a n) }) } ∧
              u.engine.buffers[b] = lent ∧
              Sends [claimAnswer c .miss, .commandOffer d (write .a { member := k, first := a })] s u ∧
              ChangesOnly [.index, .alloc, .engine, .mail, .ckpt, .timers] s u)) ∧
        (∀ (d t : DiskPort) (p : Place) (v : State), c.wanted = .two → placeOne n [] s = some (d, p, v) →
          slotOf p.member s = some t →
          (∀ (d' t' : DiskPort) (q : Place) (w : State), placeOne n [p.member] v = some (d', q, w) →
            slotOf q.member s = some t' →
            Completes (.claim c) s (fun u =>
              findEntry c.id u = some (pos, entry .writing (record (.inWrite p false) (.inWrite q false) false)) ∧
                q.member ≠ p.member ∧ u.alloc = w.alloc ∧ u.engine.buffers[b] = lent ∧
                Sends [claimAnswer c .miss, .commandOffer t (write .a p), .commandOffer t' (write .b q)] s u ∧
                ChangesOnly [.index, .alloc, .engine, .mail, .ckpt, .timers] s u)) ∧
          (placeOne n [p.member] v = none →
            Completes (.claim c) s (fun u =>
              findEntry c.id u = some (pos, entry .writing (record (.inWrite p false) .abandoned true)) ∧
                u.alloc = v.alloc ∧ u.engine.buffers[b] = lent ∧
                Sends [claimAnswer c .miss, .commandOffer t (write .a p)] s u ∧
                ChangesOnly [.index, .alloc, .engine, .mail, .ckpt, .timers] s u))) ∧
        (choosePlace n [] s = none → s.engine.order = [] →
          Completes (.claim c) s (fun u =>
            findEntry c.id u = some (pos, entry .lost none) ∧
              u.engine.buffers[b] = { state := .free, bytes := [] } ∧ flagSet .lostSeen u = true ∧
              Sends [claimAnswer c .miss, .sessionSettleReport c.id .lostNoSpace, .fetchSettleReport c.id .lostNoSpace,
                .verifySettleReport c.id .lostNoSpace] s u ∧
              ChangesOnly [.index, .engine, .report, .mail, .ckpt, .timers] s u))))

/-- DROP and MARK (R24 to R27): a drop takes one reference, 0 and 65,535 stay, and without an entry nothing changes;
at count 0 an unmarked, settled entry with no read and no recopy is removed and the verify unit is told, and any other
stays; a mark is set and takes the reference with it. -/
def Obligations.DropAndMarkCountDown : Prop :=
  ∀ (id : ChunkId) (s : State), AtEase s →
    (findEntry id s = none → exec (.drop id) s = .next s) ∧
    (∀ (pos : Nat) (e : Entry), findEntry id s = some (pos, e) → entryAt pos s = some e →
      (1 < e.count → e.count < 65535 →
        Completes (.drop id) s (fun u =>
          findEntry id u = some (pos, { e with count := e.count - 1 }) ∧ u.mail = s.mail ∧
            ChangesOnly [.index, .ckpt, .timers] s u)) ∧
      (e.count = 65535 → exec (.drop id) s = .next s) ∧
      (e.count = 0 → Completes (.drop id) s (fun u => ∀ e', entryAt pos u = some e' → e' = e)) ∧
      (e.count = 1 → e.mark = false → e.state ≠ .writing → e.holds = 0 → e.recopy = none →
        Completes (.drop id) s (fun u =>
          entryAt pos u = none ∧ Sends [.removalNotice id] s u ∧
            ChangesOnly [.index, .alloc, .mail, .ckpt, .timers] s u)) ∧
      (e.count = 1 → e.mark = true ∨ e.state = .writing ∨ 0 < e.holds ∨ e.recopy.isSome = true →
        Completes (.drop id) s (fun u =>
          findEntry id u = some (pos, { e with count := 0 }) ∧ u.mail = s.mail ∧
            ChangesOnly [.index, .ckpt, .timers] s u)) ∧
      Completes (.mark id) s (fun u =>
        findEntry id u =
            some (pos, { e with mark := true, count := if e.count = 65535 then 65535 else e.count - 1 }) ∧
          u.index.answer = .marked ∧ ChangesOnly [.index, .verify, .catalog, .mail, .ckpt, .timers] s u))

/-- LOOKUP, READ_BEGIN, READ_END, SUSPECT and CONDEMN (R20, R32), with no earlier work of the index waiting: what each
answers by the entry's state, the hold it takes or gives back, and the state it moves; LOOKUP changes nothing but the
answer, and so does READ_BEGIN on an entry WRITING or LOST or without one, SUSPECT on any state but STORED, and CONDEMN
on any but DOUBTFUL. The READ_END that brings the hold count to 0 frees every copy on the released list, and removes
the entry where nothing else keeps it (R25). -/
def Obligations.ReadsHoldAndSuspicionsMove : Prop :=
  ∀ (id : ChunkId) (s : State), AtEase s →
    (findEntry id s = none →
      Completes (.lookup id) s (fun u => u = { s with index := { s.index with answer := .absent } }) ∧
      Completes (.readBegin id) s (fun u => u = { s with index := { s.index with answer := .absent } })) ∧
    (∀ (pos : Nat) (e : Entry), findEntry id s = some (pos, e) →
      let told := { s with index := { s.index with answer := .found pos e.state e.mark e.copyA e.copyB } }
      (e.state = .writing ∨ e.state = .lost → Completes (.readBegin id) s (fun u => u = told)) ∧
      (e.state ≠ .stored → ∀ side : CopySide, Completes (.suspect id side) s (fun u => u = told)) ∧
      (e.state ≠ .doubtful → Completes (.condemn id) s (fun u => u = told)) ∧
      (e.state = .doubtful →
        Completes (.condemn id) s (fun u => u.index.answer = .found pos .lost e.mark e.copyA e.copyB)) ∧
      (e.holds = 1 → entryAt pos s = some e →
        (0 < e.count ∨ e.mark = true ∨ e.state = .writing ∨ e.recopy ≠ none →
          Completes (.readEnd id) s (fun u =>
            findEntry id u = some (pos, { e with holds := 0, released := [] }) ∧
              u.alloc = (e.released.foldl (fun s p => freeBlocks p (copyBlocks id.length) s) s).alloc ∧
              ChangesOnly [.index, .alloc] s u)) ∧
        (e.count = 0 → e.mark = false → e.state ≠ .writing → e.recopy = none →
          Completes (.readEnd id) s (fun u =>
            entryAt pos u = none ∧ Sends [.removalNotice id] s u ∧
              u.alloc = ((e.released ++ e.copyA.toList ++ e.copyB.toList).foldl
                (fun s p => freeBlocks p (copyBlocks id.length) s) s).alloc ∧
              ChangesOnly [.index, .alloc, .mail, .ckpt, .timers] s u))) ∧
      Completes (.lookup id) s (fun u =>
        u = { s with index := { s.index with answer := .found pos e.state e.mark e.copyA e.copyB } }) ∧
      (e.state = .stored ∨ e.state = .doubtful → e.holds < 128 →
        Completes (.readBegin id) s (fun u =>
          findEntry id u = some (pos, { e with holds := e.holds + 1 }) ∧
            u.index.answer = .found pos e.state e.mark e.copyA e.copyB ∧ ChangesOnly [.index] s u)) ∧
      (e.state = .stored ∨ e.state = .doubtful → 128 ≤ e.holds →
        Completes (.readBegin id) s (fun u => u.index = { s.index with answer := .busy } ∧ ChangesOnly [.index] s u)) ∧
      (2 ≤ e.holds →
        Completes (.readEnd id) s (fun u =>
          findEntry id u = some (pos, { e with holds := e.holds - 1 }) ∧ ChangesOnly [.index] s u)) ∧
      (∀ side : CopySide, e.state = .stored →
        Completes (.suspect id side) s (fun u =>
          findEntry id u = some (pos, { e with state := .doubtful }) ∧
            u.index.answer = .found pos .doubtful e.mark e.copyA e.copyB ∧
            ChangesOnly [.index, .ckpt, .timers] s u)) ∧
      (e.state = .doubtful →
        Completes (.condemn id) s (fun u =>
          findEntry id u = some (pos, { e with state := .lost }) ∧ flagSet .lostSeen u = true ∧
            ChangesOnly [.index, .report, .ckpt, .timers] s u)))

/-- RECOPY (R33): ADD B allocates a place, queues its WRITE at COPY class, filled out with zero bytes as R28's are (log
45), and keeps the buffer with the index; an entry being written, or with a recopy, is answered SUPERSEDED, and no entry
ABSENT. A WRITE of a recopy's copy B that fails at its first placement is placed once more (R29), away from the member
that failed and from the copies that remain: those its purpose keeps, or, superseded by a REVIVE, those the entry names
and those the REVIVE has in write or written. -/
def Obligations.RecopyPlacesOrAnswers : Prop :=
  ∀ (r : Recopy) (s : State), AtEase s →
    (∀ (pos : Nat) (e : Entry) (d : DiskPort) (k a : Nat) (m : BlockMap),
      findEntry r.id s = some (pos, e) → entryAt pos s = some e → e.state = .stored → e.recopy = none →
      r.purpose = .addB → choosePlace (copyBlocks r.id.length) (e.copyA.toList.map (·.member)) s = some d →
      s.alloc.members[d] = some { number := k, map := some m } → m.search (copyBlocks r.id.length) = some a →
      slotOf k s = some d →
      Completes (.recopy r) s (fun u =>
        findEntry r.id u =
            some (pos, { e with recopy := some { purpose := .addB, buffer := r.buffer, sender := r.sender,
                                                 newA := .unwanted, newB := .inWrite { member := k, first := a } false,
                                                 superseded := false } }) ∧
          u.alloc.members[d] = some { number := k, map := some (m.take a (copyBlocks r.id.length)) } ∧
          (u.engine.buffers[r.buffer]).state = .lent .index ∧
          Sends [.commandOffer d { requester := .recopyWrite r.id .b, cls := .copying,
                                   op := .write a (copyBlocks r.id.length)
                                     (.buffer r.buffer r.id.length (copyZeros r.id.length)) }] s u ∧
          ChangesOnly [.index, .engine, .alloc, .mail] s u)) ∧
    (∀ (pos : Nat) (e : Entry), findEntry r.id s = some (pos, e) → e.state = .writing ∨ e.recopy.isSome = true →
      Completes (.recopy r) s (fun u =>
        Sends [.recopyAnswer r.sender r.id r.buffer .superseded] s u ∧ ChangesOnly [.mail] s u)) ∧
    (findEntry r.id s = none →
      Completes (.recopy r) s (fun u =>
        Sends [.recopyAnswer r.sender r.id r.buffer .absent] s u ∧ ChangesOnly [.mail] s u)) ∧
    (∀ (d d' t : DiskPort) (pos : Nat) (e : Entry) (c : RecopyRec) (p q : Place) (res : DiskResult) (data : ReadData)
       (s' : State),
      findEntry r.id s = some (pos, e) → entryAt pos s = some e → e.recopy = some c → c.newA = .unwanted →
      c.newB = .inWrite p false → res ≠ .done →
      placeOne (copyBlocks r.id.length) (p.member :: remainingMembers c e) (freeBlocks p (copyBlocks r.id.length) s) =
        some (d', q, s') →
      slotOf q.member s = some t →
      OutcomeGives d (.recopyWrite r.id .b) res data s (fun u =>
        findEntry r.id u = some (pos, { e with recopy := some { c with newB := .inWrite q true } }) ∧
          u.alloc = s'.alloc ∧ q.member ≠ p.member ∧
          (c.superseded = false → ∀ k ∈ keptMembers c.purpose e, q.member ≠ k) ∧
          (c.superseded = true →
            (∀ o : Place, e.copyA = some o ∨ e.copyB = some o → q.member ≠ o.member) ∧
              ∀ (w : WriteRec) (o : Place) (again : Bool), e.write = some w →
                w.newA = .inWrite o again ∨ w.newA = .written o ∨ w.newB = .inWrite o again ∨ w.newB = .written o →
                q.member ≠ o.member) ∧
          Sends [.commandOffer t (copyWrite (.recopyWrite r.id .b) .copying r.id c.buffer q)] s u ∧
          ChangesOnly [.index, .alloc, .mail] s u))

/-! ### Disk ports -/

/-- COMMAND_OFFER (R43, R48, R49, R50, R53, R54): on an ABSENT or FAULTED disk the command ends at once, DISK_FAULT or
SKIPPED, whatever blocks it names (the model's choice, log 12); on an idle READY disk it is in flight with the watch
armed, under the next attempt number (log 37); on a READY disk one out of the disk's range ends FAILED, which restarts
DISK_IDLE where its class is SERVE, META or STORE; on a STANDBY disk it is queued and the port stands in the arbiter's
order or spins up; at a full queue it joins the offer line. -/
def Obligations.OfferByDiskState : Prop :=
  ∀ (d : DiskPort) (cmd : DiskCmd) (s : State),
    (∀ o ∈ (s.ports.port[d]).offers, userOf o.requester ≠ userOf cmd.requester) →
    ((s.ports.port[d]).spin = .absent ∨ (s.ports.port[d]).spin = .faulted →
      exec (.commandOffer d cmd) s =
        .next (takeOutcome d cmd.requester (if cmd.cls = .scrub then .skipped else .diskFault) .nothing s)) ∧
    ((s.ports.port[d]).spin = .ready → inRange (s.ports.port[d]).capacity cmd.op = true →
      (s.ports.port[d]).queue = [] → (s.ports.port[d]).flight = none → (s.ports.port[d]).standby = none →
      Completes (.commandOffer d cmd) s (fun u =>
        u.ports.port[d] = { s.ports.port[d] with flight := some (cmd, false), watch := some s.now,
                                                 attempt := (s.ports.port[d]).attempt + 1 } ∧
          (∀ e, e ≠ d → u.ports.port[e] = s.ports.port[e]) ∧ ChangesOnly [.ports] s u)) ∧
    ((s.ports.port[d]).spin = .ready → inRange (s.ports.port[d]).capacity cmd.op = false →
      s.power.station ≠ .coldStart →
      exec (.commandOffer d cmd) s =
        .next (takeOutcome d cmd.requester .failed .nothing
          (if cmd.cls = .serve ∨ cmd.cls = .metadata ∨ cmd.cls = .store then
            startTimer (diskIdleTimer d) s.conf.diskIdle s
          else s))) ∧
    ((s.ports.port[d]).spin = .standby → cmd.cls ≠ .scrub → inRange (s.ports.port[d]).capacity cmd.op = true →
      (s.ports.port[d]).queued < 32 →
      Completes (.commandOffer d cmd) s (fun u =>
        (u.ports.port[d]).queue = (s.ports.port[d]).queue ++ [cmd] ∧
          (d ∈ u.ports.waiting ∨ (u.ports.port[d]).spin = .spinup) ∧ ChangesOnly [.ports] s u)) ∧
    ((s.ports.port[d]).spin = .ready → inRange (s.ports.port[d]).capacity cmd.op = true →
      32 ≤ (s.ports.port[d]).queued →
      Completes (.commandOffer d cmd) s (fun u =>
        u.ports.port[d] = { s.ports.port[d] with offers := (s.ports.port[d]).offers ++ [cmd] } ∧
          ChangesOnly [.ports] s u))

/-- SPINUP_READY, SPINUP_WATCH_EXPIRY and SPIN_UP_ERROR (R47, R52, R54): ready makes the disk READY with DISK_IDLE
started, which in COLD_START waits for the entry into AWAKE (R179, log 38); a first attempt that fails is made again,
the disk still in SPINUP; a second one makes it FAULTED, with DISK_FAULT set. -/
def Obligations.SpinupEnds : Prop :=
  ∀ (d : DiskPort) (s : State), (s.ports.port[d]).spin = .spinup → d ∉ s.ports.waiting →
    ((s.ports.port[d]).labelDone = true → (s.ports.port[d]).queue = [] → (s.ports.port[d]).parkPending = false →
      Completes (.spinupReady d) s (fun u =>
        u.ports.port[d] = { s.ports.port[d] with spin := .ready, grant := false, watch := none } ∧
          (s.power.station ≠ .coldStart → TimerStarted (diskIdleTimer d) s.conf.diskIdle u) ∧
          (s.power.station = .coldStart → u.timers = s.timers) ∧ OtherTimersSame [diskIdleTimer d] s u ∧
          ChangesOnly [.ports, .timers] s u)) ∧
    (∀ c : Instr, ((c = .spinupWatchExpiry d ∧ watchOut d s = true) ∨ c = .spinUpError d) →
      ((s.ports.port[d]).spinAgain = false →
        Completes c s (fun u =>
          u.ports.port[d] = { s.ports.port[d] with spinAgain := true, watch := some s.now } ∧
            (∀ e, e ≠ d → u.ports.port[e] = s.ports.port[e]) ∧ ChangesOnly [.ports] s u)) ∧
      ((s.ports.port[d]).spinAgain = true → (s.ports.port[d]).queue = [] → (s.ports.port[d]).offers = [] →
        (s.ports.port[d]).backlog = [] → (s.ports.port[d]).parkPending = false → s.ckpt.current = none →
        Completes c s (fun u =>
          (u.ports.port[d]).spin = .faulted ∧ (u.ports.port[d]).watch = none ∧ flagSet .diskFault u = true ∧
            TimerStopped (diskIdleTimer d) u ∧ ChangesOnly [.ports, .timers, .report, .mail] s u)))

/-- DISK_COMMAND_REPORT and COMMAND_WATCH_EXPIRY (R50, R51, R53, R54): a first failure sends the command again and
counts nothing; a success ends it DONE with the count at 0, and its requester takes the outcome; a second failure, short
of the third in a row, ends it FAILED with the count up by 1; the late report of a dropped attempt, known by its number
(log 37), is discarded. With a checkpoint's command that ends FAILED, its commands kept back for the port fall away
before room comes about (R137). A WRITE of a claim's copy ends (R28, R29, R30). The settle waits for the other copy; it
makes the entry STORED with the copies written, UNMIRRORED_SEEN set where one of two is missing and two members are
PRESENT, or LOST with none; the settle is reported to its three receivers, in an order of the model's (log 46), the
copies kept from before a revive are freed or wait for the reads that hold them, and the buffer goes back. A first
failure places the copy once more, on another member. -/
def Obligations.AttemptEnds : Prop :=
  (∀ (d : DiskPort) (cmd : DiskCmd) (again : Bool) (s : State), (s.ports.port[d]).flight = some (cmd, again) →
     (∀ (c : Instr) (data : ReadData), again = false →
       (c = .diskCommandReport d { attempt := (s.ports.port[d]).attempt, good := false } data ∨
         (c = .commandWatchExpiry d ∧ watchOut d s = true ∧ (s.ports.port[d]).spin = .ready)) →
       Completes c s (fun u =>
         u.ports.port[d] = { s.ports.port[d] with flight := some (cmd, true), watch := some s.now,
                                                  attempt := (s.ports.port[d]).attempt + 1 } ∧
           (∀ e, e ≠ d → u.ports.port[e] = s.ports.port[e]) ∧ ChangesOnly [.ports] s u)) ∧
     (∀ (e : AttemptEnd) (data : ReadData), e.attempt ≠ (s.ports.port[d]).attempt →
       exec (.diskCommandReport d e data) s = .next s) ∧
     ((s.ports.port[d]).queue = [] → (s.ports.port[d]).offers = [] → (s.ports.port[d]).backlog = [] →
       (s.ports.port[d]).parkPending = false →
       (∀ data : ReadData, ∃ v,
         exec (.diskCommandReport d { attempt := (s.ports.port[d]).attempt, good := true } data) s =
             .next (takeOutcome d cmd.requester .done data v) ∧
           v.ports.port[d] = { s.ports.port[d] with flight := none, watch := none, failures := 0 } ∧
           (restartsIdle cmd.cls = true → s.power.station ≠ .coldStart →
             TimerStarted (diskIdleTimer d) s.conf.diskIdle v) ∧
           (restartsIdle cmd.cls = false → v.timers = s.timers) ∧ ChangesOnly [.ports, .timers] s v) ∧
       (∀ data : ReadData, again = true → (s.ports.port[d]).failures < 2 → ∃ v,
         exec (.diskCommandReport d { attempt := (s.ports.port[d]).attempt, good := false } data) s =
             .next (takeOutcome d cmd.requester .failed .nothing v) ∧
           v.ports.port[d] =
             { s.ports.port[d] with flight := none, watch := none, failures := (s.ports.port[d]).failures + 1 } ∧
           ChangesOnly [.ports, .timers] s v)) ∧
     (∀ (gen : Word) (data : ReadData), again = true → (s.ports.port[d]).failures < 2 →
       checkpointOf cmd.requester = some gen → (s.ports.port[d]).queue = [] → (s.ports.port[d]).offers = [] →
       (s.ports.port[d]).parkPending = false →
       (∀ k ∈ (s.ports.port[d]).backlog, checkpointOf k.requester = some gen) → ∃ v,
         exec (.diskCommandReport d { attempt := (s.ports.port[d]).attempt, good := false } data) s =
             .next (takeOutcome d cmd.requester .failed .nothing v) ∧
           v.ports.port[d] =
             { s.ports.port[d] with flight := none, watch := none, failures := (s.ports.port[d]).failures + 1,
                                    backlog := [] } ∧
           ChangesOnly [.ports, .timers] s v)) ∧
  (∀ (d : DiskPort) (id : ChunkId) (pos : Nat) (e : Entry) (w : WriteRec) (res : DiskResult) (data : ReadData) (s : State),
     AtEase s → findEntry id s = some (pos, e) → entryAt pos s = some e → e.write = some w → e.count ≠ 0 →
     (∀ (p : Place) (again : Bool), w.newA = .inWrite p again → res = .done →
       (∀ (q : Place) (other : Bool), w.newB = .inWrite q other →
         OutcomeGives d (.chunkWrite id .a) res data s (fun u =>
           findEntry id u = some (pos, { e with write := some { w with newA := .written p } }) ∧
             ChangesOnly [.index] s u)) ∧
       (s.engine.order = [] → w.oldA = none → w.oldB = none →
         (w.newB = .unwanted → e.mark = false →
           OutcomeGives d (.chunkWrite id .a) res data s (fun u =>
             findEntry id u = some (pos, { e with state := .stored, copyA := some p, copyB := none, write := none }) ∧
               Sends [.sessionSettleReport id .stored, .fetchSettleReport id .stored, .verifySettleReport id .stored] s u ∧
               u.engine.buffers[w.buffer] = { state := .free, bytes := [] } ∧
               ChangesOnly [.index, .engine, .mail, .ckpt, .timers] s u)) ∧
         (∀ q : Place, w.newB = .written q →
           OutcomeGives d (.chunkWrite id .a) res data s (fun u =>
             findEntry id u = some (pos, { e with state := .stored, copyA := some p, copyB := some q, write := none }) ∧
               Sends [.sessionSettleReport id .stored, .fetchSettleReport id .stored, .verifySettleReport id .stored] s u ∧
               u.engine.buffers[w.buffer] = { state := .free, bytes := [] } ∧
               ChangesOnly [.index, .engine, .mail, .ckpt, .timers] s u))) ∧
       (∀ old : Place, s.engine.order = [] → w.oldA = some old → w.oldB = none → w.newB = .unwanted → e.mark = false →
         OutcomeGives d (.chunkWrite id .a) res data s (fun u =>
           (0 < e.holds →
             findEntry id u = some (pos, { e with state := .stored, copyA := some p, copyB := none, write := none,
                                                  released := e.released ++ [old] }) ∧ u.alloc = s.alloc) ∧
             (e.holds = 0 →
               findEntry id u = some (pos, { e with state := .stored, copyA := some p, copyB := none, write := none }) ∧
                 u.alloc = (freeBlocks old (copyBlocks e.id.length) s).alloc)))) ∧
     (∀ p : Place, w.newA = .inWrite p true → res ≠ .done → s.engine.order = [] → w.oldA = none → w.oldB = none →
       (∀ q : Place, w.newB = .written q → e.mark = false →
         OutcomeGives d (.chunkWrite id .a) res data s (fun u =>
           findEntry id u = some (pos, { e with state := .stored, copyA := some q, copyB := none, write := none }) ∧
             Sends [.sessionSettleReport id .stored, .fetchSettleReport id .stored, .verifySettleReport id .stored] s u ∧
             (2 ≤ presentMembers s → flagSet .unmirroredSeen u = true) ∧
             (presentMembers s < 2 → u.report = s.report) ∧
             u.alloc = (freeBlocks p (copyBlocks id.length) s).alloc ∧
             ChangesOnly [.index, .alloc, .engine, .report, .mail, .ckpt, .timers] s u)) ∧
       (w.newB = .unwanted → w.issued = true →
         OutcomeGives d (.chunkWrite id .a) res data s (fun u =>
           findEntry id u = some (pos, { e with state := .lost, copyA := none, copyB := none, write := none }) ∧
             Sends [.sessionSettleReport id .lostWriteFailed, .fetchSettleReport id .lostWriteFailed,
               .verifySettleReport id .lostWriteFailed] s u ∧
             flagSet .lostSeen u = true ∧ u.engine.buffers[w.buffer] = { state := .free, bytes := [] } ∧
             u.alloc = (freeBlocks p (copyBlocks id.length) s).alloc ∧
             ChangesOnly [.index, .alloc, .engine, .report, .mail, .ckpt, .timers] s u))) ∧
     (∀ (p q : Place) (d' t : DiskPort) (s' : State), w.newA = .inWrite p false → w.newB = .unwanted → res ≠ .done →
       placeOne (copyBlocks id.length) [p.member] (freeBlocks p (copyBlocks id.length) s) = some (d', q, s') →
       slotOf q.member s = some t →
       OutcomeGives d (.chunkWrite id .a) res data s (fun u =>
         findEntry id u = some (pos, { e with write := some { w with newA := .inWrite q true } }) ∧ u.alloc = s'.alloc ∧
           q.member ≠ p.member ∧
           Sends [.commandOffer t (copyWrite (.chunkWrite id .a) .store id w.buffer q)] s u ∧
           ChangesOnly [.index, .alloc, .mail] s u)))

/-- DISK_IDLE expiry, PARK and UNPARK (R54 to R57): an idle READY disk is sent STANDBY, an attempt under the port's next
number (the model's own, log 37), a busy one's timer restarts; PARK answers PARKED at once where the disk rests, sends
STANDBY where it is READY and idle, and else waits: in SPINUP, in STANDBY with a queue, and READY with a command or a
STANDBY in flight; UNPARK ends the wait and leaves DISK_IDLE as it stands. -/
def Obligations.DisksComeToRest : Prop :=
  ∀ (d : DiskPort) (s : State),
    (ExpiryDue (diskIdleTimer d) .first s → (s.ports.port[d]).spin = .ready → (s.ports.port[d]).standby = none →
      (s.ports.port[d]).parkPending = false →
      ((s.ports.port[d]).queued = 0 →
        Completes (.diskIdleExpiry d) s (fun u =>
          u.ports.port[d] =
              { s.ports.port[d] with standby := some { again := false, park := false }, watch := some s.now,
                                     attempt := (s.ports.port[d]).attempt + 1 } ∧
            TimerStopped (diskIdleTimer d) u ∧ ChangesOnly [.ports, .timers] s u)) ∧
      (0 < (s.ports.port[d]).queued → s.power.station ≠ .coldStart →
        Completes (.diskIdleExpiry d) s (fun u =>
          TimerStarted (diskIdleTimer d) s.conf.diskIdle u ∧ ChangesOnly [.timers] s u))) ∧
    ((s.ports.port[d]).spin = .absent ∨ (s.ports.port[d]).spin = .faulted →
      Completes (.park d) s (fun u => Sends [.parked d] s u ∧ ChangesOnly [.mail] s u)) ∧
    ((s.ports.port[d]).spin = .standby → (s.ports.port[d]).queue = [] →
      Completes (.park d) s (fun u =>
        Sends [.parked d] s u ∧ d ∉ u.ports.waiting ∧ u.ports.port = s.ports.port ∧
          ChangesOnly [.ports, .mail] s u)) ∧
    ((s.ports.port[d]).spin = .ready → (s.ports.port[d]).queue = [] → (s.ports.port[d]).flight = none →
      (s.ports.port[d]).standby = none →
      Completes (.park d) s (fun u =>
        (u.ports.port[d]).standby = some { again := false, park := true } ∧ (u.ports.port[d]).parkPending = true ∧
          TimerStopped (diskIdleTimer d) u ∧ u.mail = s.mail ∧ ChangesOnly [.ports, .timers] s u)) ∧
    ((s.ports.port[d]).spin = .spinup ∨ ((s.ports.port[d]).spin = .standby ∧ (s.ports.port[d]).queue ≠ []) ∨
        ((s.ports.port[d]).spin = .ready ∧ ((s.ports.port[d]).flight ≠ none ∨ (s.ports.port[d]).standby ≠ none)) →
      Completes (.park d) s (fun u =>
        u.ports.port[d] = { s.ports.port[d] with parkPending := true } ∧
          (∀ e, e ≠ d → u.ports.port[e] = s.ports.port[e]) ∧ u.ports.waiting = s.ports.waiting ∧
          ChangesOnly [.ports] s u)) ∧
    Completes (.unpark d) s (fun u =>
      u.ports.port[d] =
          { s.ports.port[d] with
            parkPending := false, standby := (s.ports.port[d]).standby.map (fun r => { r with park := false }) } ∧
        (∀ e, e ≠ d → u.ports.port[e] = s.ports.port[e]) ∧ u.ports.waiting = s.ports.waiting ∧
        ChangesOnly [.ports] s u)

/-! ### The session manager -/

/-- OPEN_SESSION and BEGIN_OBJECT (R61, R62, R63, R65): the session takes the lowest empty entry and binds its context;
an unregistered client of a BACKUP session is registered first; the object is opened under the next serial, its length
reserved; SESSION_IDLE starts at the grant of a session, and with the answer to BEGIN_OBJECT, where that joins the
transmit queue at once (R191); in DOZING too a session is granted (the model's choice, log 47); a second session, a full
table and a BOX are refused, and a second session's refusal leaves SESSION_IDLE of the first as it stands (the model's
choice, log 43). -/
def Obligations.SessionOpensAndObjectBegins : Prop :=
  ∀ (h : ReqHdr) (i : SessionNo) (s : State), AtEase s →
    (∀ (k : OpenKind) (kind : SessionKind), h.box = false → sessionOf h.tag s = none →
      s.sessions.table[i] = none → (∀ j : SessionNo, j < i → s.sessions.table[j] ≠ none) →
      (k = .backup ∧ kind = .backup) ∨
        (∃ n t, k = .album n t ∧ kind = .album n t ∧ n ≤ 31 ∧ ∀ b, t = some b → b.length ≤ 32) →
      (k = .backup → clientOf h.tag s = none → (registerPlace s).isSome) →
      Completes (.openSession h k) s (fun u =>
        u.sessions.table[i] =
            some { tag := h.tag, kind := kind, state := .idle, current := none, failed := none, draft := [],
                   reservations := 0, entering := none, ending := none, closing := none } ∧
          (∀ j, j ≠ i → u.sessions.table[j] = s.sessions.table[j]) ∧
          (k ≠ .backup ∨ (clientOf h.tag s).isSome → u.sessions.clients = s.sessions.clients) ∧
          (∀ c, k = .backup → clientOf h.tag s = none → registerPlace s = some c →
            u.sessions.clients[c] =
              some { tag := h.tag, quota := s.conf.quota, used := 0, reserved := 0, retention := s.conf.retention,
                     lastSnapshot := 0, snapshots := [] }) ∧
          Answers h .ok (beBytes 1 i.val) false s u ∧
          TimerStarted (sessionIdleTimer i) s.conf.sessionIdle u ∧
          Sends [.ctxBind i] (takeRequest (.openSession h k) s) u ∧
          ChangesOnly [.sessions, .link, .mail, .timers, .ckpt] s u)) ∧
    (∀ (k : OpenKind) (code : Code),
      (h.box = true ∧ code = .notPermitted) ∨
        (h.box = false ∧ k = .backup ∧ sessionOf h.tag s ≠ none ∧ code = .sessionOpen) ∨
        (h.box = false ∧ k = .backup ∧ sessionOf h.tag s = none ∧ (∀ j : SessionNo, s.sessions.table[j] ≠ none) ∧
          code = .sessionsFull) →
      Completes (.openSession h k) s (fun u => Answers h code [] false s u ∧ ChangesOnly [.link, .mail] s u)) ∧
    (∀ (x : Session) (c : Fin 16) (k : Client) (object : ObjectId) (declared : Nat), sessionOf h.tag s = some i →
      s.sessions.table[i] = some x → x.kind = .backup → x.state = .idle → x.current = none → x.entering = none →
      (∀ d ∈ x.draft, d.id ≠ object) → x.draft.length < 4096 → clientOf x.tag s = some c →
      s.sessions.clients[c] = some k → k.quota = 0 ∨ k.used + k.reserved + declared ≤ k.quota → declared < 2 ^ 40 →
      Completes (.beginObject h object declared none) s (fun u =>
        u.sessions.table[i] =
            some { x with failed := none, state := .intake,
                          current := some { id := object, serial := s.sessions.nextSerial, declared := declared,
                                            received := 0, caption := none, photo := none, elems := [],
                                            ended := false, cut := false } } ∧
          u.sessions.clients[c] = some { k with reserved := k.reserved + declared } ∧
          u.sessions.nextSerial =
            (if s.sessions.nextSerial = 0xFFFFFFFF then 1 else s.sessions.nextSerial + 1) ∧
          Answers h .ok [] false s u ∧
          Sends [.ctxOpen i s.sessions.nextSerial] (takeRequest (.beginObject h object declared none) s) u ∧
          (s.link.tx.length < 64 → TimerStarted (sessionIdleTimer i) s.conf.sessionIdle u) ∧
          ChangesOnly [.sessions, .link, .mail, .timers, .ckpt] s u))

/-- SEGMENT, "segment entered", END_OBJECT and "object cut" (R61, R66, R70): a segment at the received count enters
the engine and is answered once it is entered; one below is DUPLICATE; a request that finds the session busy is
deferred and keeps its place in the queue (R189), or takes the last place where it came past the queue (the model's
choice, log 1); a settled object joins the draft, and END_OBJECT is answered. -/
def Obligations.SegmentsEnterTheirObject : Prop :=
  ∀ (h : ReqHdr) (i : SessionNo) (x : Session) (o : CurrentObject) (s : State), AtEase s →
    s.sessions.table[i] = some x → x.current = some o → x.state = .intake →
    (∀ bytes : List Byte, sessionOf h.tag s = some i → o.ended = false → x.entering = none → bytes ≠ [] →
      o.received + bytes.length ≤ o.declared →
      Completes (.segment h o.id o.received bytes) s (fun u =>
        u.sessions.table[i] =
            some { x with entering := some h, current := some { o with received := o.received + bytes.length } } ∧
          Sends [.ctxEnter i bytes] (takeRequest (.segment h o.id o.received bytes) s) u ∧
          TimerStopped (sessionIdleTimer i) u ∧ u.link.tx = s.link.tx ∧
          ChangesOnly [.sessions, .link, .mail, .timers, .ckpt] s u)) ∧
    (∀ (offset : Nat) (bytes : List Byte), sessionOf h.tag s = some i → o.ended = false → x.entering = none →
      offset < o.received →
      Completes (.segment h o.id offset bytes) s (fun u =>
        Answers h .duplicate [] false s u ∧ u.sessions = s.sessions ∧
          (s.link.tx.length < 64 → TimerStarted (sessionIdleTimer i) s.conf.sessionIdle u) ∧
          ChangesOnly [.link, .mail, .timers] s u)) ∧
    (∀ (offset : Nat) (bytes : List Byte) (before behind : List IntakeItem) (st : Standing),
      sessionOf h.tag s = some i → x.entering ≠ none → st ≠ .deferred →
      s.link.intake = before ++ { cmd := .segment h o.id offset bytes, standing := st } :: behind →
      (∀ j ∈ before, j.cmd ≠ .segment h o.id offset bytes) →
      Completes (.segment h o.id offset bytes) s (fun u =>
        u.link = { s.link with
          intake := before ++ { cmd := .segment h o.id offset bytes, standing := .deferred } :: behind } ∧
          ChangesOnly [.link] s u)) ∧
    (∀ (offset : Nat) (bytes : List Byte), sessionOf h.tag s = some i → x.entering ≠ none → s.link.intake = [] →
      Completes (.segment h o.id offset bytes) s (fun u =>
        u.link = { s.link with intake := [{ cmd := .segment h o.id offset bytes, standing := .deferred }] } ∧
          ChangesOnly [.link] s u)) ∧
    (∀ r : ReqHdr, x.entering = some r →
      Completes (.segmentEntered i o.serial) s (fun u =>
        u.sessions.table[i] = some { x with entering := none } ∧ Answers r .ok [] false s u ∧
          Sends [.ownerReady .sessions] s u ∧
          (s.link.tx.length < 64 → TimerStarted (sessionIdleTimer i) s.conf.sessionIdle u) ∧
          ChangesOnly [.sessions, .link, .mail, .timers, .ckpt] s u)) ∧
    (sessionOf h.tag s = some i → o.ended = false → x.entering = none → o.received = o.declared →
      Completes (.endObject h o.id) s (fun u =>
        u.sessions.table[i] = some { x with ending := some h, current := some { o with ended := true } } ∧
          Sends [.ctxEnd i] (takeRequest (.endObject h o.id) s) u ∧ u.link.tx = s.link.tx ∧
          ChangesOnly [.sessions, .link, .mail, .timers, .ckpt] s u)) ∧
    (∀ r : ReqHdr, x.ending = some r → x.kind = .backup → o.ended = true → o.cut = false →
      (∀ e ∈ o.elems, e.standing = .settled) →
      Completes (.objectCut i o.serial) s (fun u =>
        u.sessions.table[i] =
            some { x with state := .idle, current := none, ending := none,
                          draft := x.draft ++ [{ id := o.id, length := o.received, elems := o.elems,
                                                 photo := o.photo.getD 0, caption := o.caption, turned := false }] } ∧
          Answers r .ok [] false s u ∧ Sends [.ownerReady .sessions] s u ∧
          ChangesOnly [.sessions, .link, .mail, .timers, .ckpt] s u))

/-- CLAIM_OUTCOME and SESSION_SETTLE_REPORT (R67, R68, R69): an outcome sets the element's standing; one of a finished
object that took a reference gives it back by one DROP; STORED settles the waiting element, and LOST fails the object
with NO_SPACE or STORE_FAILED, its references dropped and its length given back; CTX_DISCARD goes out before CTX_END
has. -/
def Obligations.OutcomesReachTheObject : Prop :=
  ∀ (i : SessionNo) (x : Session) (o : CurrentObject) (pos : Nat) (e : ObjElem) (s : State), AtEase s →
    s.sessions.table[i] = some x → x.current = some o → x.state = .intake → o.elems[pos]? = some e →
    (∀ r : ClaimResult, r ≠ .indexFull →
      Completes (.claimOutcome i o.serial pos e.id r) s (fun u =>
        u.sessions.table[i] =
            some { x with
              current := some { o with
                elems := o.elems.set pos
                  { e with standing := if r = .hit then .settled else if r = .needsBytes then .none else .waiting } } } ∧
          u.mail = s.mail ∧ ChangesOnly [.sessions, .timers, .ckpt] s u)) ∧
    (∀ (serial : Word) (id : ChunkId) (r : ClaimResult), serial ≠ o.serial → r ≠ .needsBytes → r ≠ .indexFull →
      Completes (.claimOutcome i serial pos id r) s (fun u => Sends [.drop id] s u ∧ ChangesOnly [.mail] s u)) ∧
    ((∀ j : SessionNo, j ≠ i → s.sessions.table[j] = none) → e.standing = .waiting →
      Completes (.sessionSettleReport e.id .stored) s (fun u =>
        u.sessions.table[i] =
            some { x with
              current := some { o with
                elems := o.elems.map (fun y =>
                  if y.id = e.id ∧ y.standing = .waiting then { y with standing := .settled } else y) } } ∧
          u.mail = s.mail ∧ ChangesOnly [.sessions, .timers, .ckpt] s u) ∧
      (∀ (r : Settled) (code : Code) (c : Fin 16) (k : Client),
        (r = .lostNoSpace ∧ code = .noSpace) ∨ (r = .lostWriteFailed ∧ code = .storeFailed) →
        x.kind = .backup → x.entering = none → x.ending = none → o.ended = false →
        clientOf x.tag s = some c → s.sessions.clients[c] = some k →
        Completes (.sessionSettleReport e.id r) s (fun u =>
          u.sessions.table[i] =
              some { x with current := none, failed := some (o.id, code), state := .idle } ∧
            u.sessions.clients[c] = some { k with reserved := k.reserved - o.declared } ∧
            Sends (.ctxDiscard i ::
              ((o.elems.filter (fun y => y.standing = .settled || y.standing = .waiting)).map
                (fun y => Instr.drop y.id))) s u ∧
            ChangesOnly [.sessions, .mail, .timers, .ckpt] s u)))

/-- CLOSE_SESSION, ABANDON_SESSION and SESSION_IDLE expiry (R60, R75 to R79): a session without a draft leaves the
table on its close; a given-up one leaves it with the references its draft holds dropped; a draft of one recipe is
placed and written at META class; one without elements is turned over into the next snapshot, and a checkpoint is asked
for. An ALBUM's turnover goes on with its next draft object (R76, R93): a photo is made HELD at the next origin seq,
with one MARK per element; where its key is taken its references are dropped and its extent freed; the reservation goes
either way. After the last one the title is set, the draft is empty and the covering checkpoint is requested. One
object is one step, and one close is turned over at a time, the next waiting its turn (the model's, log 28). A
completed checkpoint answers its closers (R77, R94, R106, R138, R139, R143, R191): a close is answered OK and its
session leaves, for ALBUM with HOLDING and the announced seq raised at once; with the transmit queue full the session
stays until its answer has joined (log 25); a fetch sends HOLDING and its context is FREE; the power unit is told SAVED
where the image is level; cold start ends in AWAKE. A start of SESSION_IDLE that waited with an answer is made once the
answer is handed, but not for a session granted to the same entry since (R61, log 25). -/
def Obligations.SessionsLeaveTheTable : Prop :=
  (∀ (h : ReqHdr) (i : SessionNo) (x : Session) (s : State), AtEase s → s.sessions.table[i] = some x →
     x.current = none → x.state = .idle →
     (sessionOf h.tag s = some i → x.entering = none → x.draft = [] →
       Completes (.closeSession h) s (fun u =>
         u.sessions.table[i] = none ∧ Answers h .ok (if isBackup x then [0, 0, 0, 0] else []) false s u ∧
           Sends [.ctxUnbind i] (takeRequest (.closeSession h) s) u ∧ TimerStopped (sessionIdleTimer i) u ∧
           ChangesOnly [.sessions, .link, .mail, .timers, .ckpt] s u)) ∧
     (∀ (d : DraftObject) (c : Fin 16) (k : Client) (p : DiskPort) (n a : Nat) (m : BlockMap),
       sessionOf h.tag s = some i → x.entering = none → x.draft = [d] → x.kind = .backup → clientOf x.tag s = some c →
       s.sessions.clients[c] = some k → k.snapshots.length < 40 → k.lastSnapshot ≠ 0xFFFFFFFF →
       (1 ≤ d.elems.length → d.elems.length ≤ 204 → choosePlace 1 [] s = some p →
         s.alloc.members[p] = some { number := n, map := some m } → m.search 1 = some a → slotOf n s = some p →
         Completes (.closeSession h) s (fun u =>
           u.sessions.table[i] =
               some { x with state := .closing,
                             closing := some { hdr := h, failure := none, turned := false, snapshot := 0, made := [],
                                               extents := [.writing { member := n, first := a } d.elems.length
                                                 (d.elems.map (·.id)) 1 false false] } } ∧
             u.alloc.members[p] = some { number := n, map := some (m.take a 1) } ∧
             Sends [.commandOffer p { requester := .closeExtent i 0, cls := .metadata,
                                      op := .write a 1 (.elements (d.elems.map (·.id))) }]
               (takeRequest (.closeSession h) s) u ∧
             u.link.tx = s.link.tx ∧ ChangesOnly [.sessions, .alloc, .link, .mail, .timers, .ckpt] s u)) ∧
       (d.elems = [] → k.snapshots.length + 1 ≤ k.retention →
         Completes (.closeSession h) s (fun u =>
           u.sessions.clients[c] =
               some { k with lastSnapshot := k.lastSnapshot + 1, reserved := k.reserved - d.length,
                             used := k.used + d.length,
                             snapshots := k.snapshots ++
                               [{ number := k.lastSnapshot + 1, retiring := false, logical := d.length,
                                  objects := [{ id := d.id, length := d.length, chunks := 0, extent := none }] }] } ∧
             u.sessions.table[i] =
               some { x with state := .closing, draft := [],
                             closing := some { hdr := h, extents := [], failure := none, turned := true,
                                               snapshot := k.lastSnapshot + 1, made := [] } } ∧
             Sends [.checkpointRequest (some (.session i))] (takeRequest (.closeSession h) s) u ∧
             u.link.tx = s.link.tx ∧ ChangesOnly [.sessions, .link, .mail, .timers, .ckpt] s u))) ∧
     (∀ (n : Nat) (serving : Option ReqHdr), s.pending = [] → s.mail = [.deed (.idle i n serving)] →
       (n ≠ s.sessions.openings[i] → step s = .next { s with mail := [] }) ∧
       (n = s.sessions.openings[i] → x.entering = none → x.ending = none →
         ∃ u, step s = .next u ∧ u.mail = [] ∧ TimerStarted (sessionIdleTimer i) s.conf.sessionIdle u ∧
           OtherTimersSame [sessionIdleTimer i] s u ∧ ChangesOnly [.mail, .timers] s u)) ∧
     (∀ held : List ChunkId,
       held = (x.draft.filter (fun d => !d.turned)).flatMap (fun d =>
         (d.elems.filter (fun e => e.standing = .settled || e.standing = .waiting)).map (·.id)) →
     (sessionOf h.tag s = some i →
       Completes (.abandonSession h) s (fun u =>
         u.sessions.table[i] = none ∧ Answers h .ok [] false s u ∧
           Sends (held.map Instr.drop ++ [.ctxUnbind i]) (takeRequest (.abandonSession h) s) u ∧
           TimerStopped (sessionIdleTimer i) u ∧ ChangesOnly [.sessions, .link, .mail, .timers, .ckpt] s u)) ∧
     (ExpiryDue (sessionIdleTimer i) .first s →
       Completes (.sessionIdleExpiry i) s (fun u =>
         u.sessions.table[i] = none ∧
           Sends (held.map Instr.drop ++ [.ctxUnbind i]) s u ∧
           TimerStopped (sessionIdleTimer i) u ∧ ChangesOnly [.sessions, .mail, .timers, .ckpt] s u)))) ∧
  (∀ (i : SessionNo) (x : Session) (n : Nat) (title : Option (List Byte)) (cl : Closing) (s : State), AtEase s →
     s.pending = [] → s.mail = [.turn i] → s.sessions.table[i] = some x → x.kind = .album n title →
     x.closing = some cl → cl.turned = false → cl.failure = none → cl.extents.any extentBusy = false →
     (∀ (j : Nat) (o : DraftObject), x.draft.findIdx? (fun o => !o.turned) = some j → x.draft[j]? = some o →
       (findPhoto n o.photo s = none →
         ∃ u, step s = .next u ∧
           u.catalog = { s.catalog with
                           ownCounter := s.catalog.ownCounter + 1,
                           photos := s.catalog.photos ++
                             [{ album := n, id := o.photo, origin := s.conf.tag, seq := s.catalog.ownCounter + 1,
                                length := o.length, caption := o.caption, state := .held, holders := [s.conf.tag],
                                more := false, extent := (cl.extents[j]?).bind extentOf }],
                           marksOut := s.catalog.marksOut + o.elems.length } ∧
           u.mail = o.elems.map (fun e => Work.cmd (.mark e.id)) ++ [.turn i] ∧
           u.sessions.table[i] =
             some { x with draft := changeAt (DraftObject.turnedOver true) j x.draft, reservations := x.reservations - 1,
                           closing := some { cl with made := cl.made ++ [s.catalog.photos.length],
                                                     extents := changeAt (fun _ => .absent) j cl.extents } } ∧
           ChangesOnly [.mail, .catalog, .sessions, .ckpt, .timers] s u) ∧
       ((findPhoto n o.photo s).isSome = true →
         ∃ u, step s = .next u ∧
           u.mail = o.elems.map (fun e => Work.cmd (.drop e.id)) ++ [.turn i] ∧
           u.sessions.table[i] =
             some { x with draft := changeAt (DraftObject.turnedOver false) j x.draft, reservations := x.reservations - 1,
                           closing := some { cl with extents := changeAt (fun _ => .absent) j cl.extents } } ∧
           (∀ e, (cl.extents[j]?).bind extentOf = some e → u.alloc = (freeExtent e s).alloc) ∧
           ((cl.extents[j]?).bind extentOf = none → u.alloc = s.alloc) ∧
           ChangesOnly [.mail, .alloc, .sessions, .ckpt, .timers] s u)) ∧
     (x.draft.findIdx? (fun o => !o.turned) = none →
       ∃ u, step s = .next u ∧
         u.mail = .cmd (.checkpointRequest (some (.session i))) ::
           (s.catalog.turnovers.tail.head?.map Work.turn).toList ∧
         u.sessions.table[i] = some { x with draft := [], closing := some { cl with turned := true, extents := [] } } ∧
         (∀ (t : List Byte) (h : n < 32), title = some t → u.catalog.titles[(⟨n, h⟩ : Fin 32)] = some t) ∧
         u.catalog.turnovers = s.catalog.turnovers.tail ∧
         (title = none → u.catalog = { s.catalog with turnovers := s.catalog.turnovers.tail }) ∧
         ChangesOnly [.mail, .catalog, .sessions, .ckpt, .timers] s u)) ∧
  (∀ (i : SessionNo) (x : Session) (n : Nat) (title : Option (List Byte)) (cl : Closing) (d : DiskPort) (p : Place)
     (k : Nat) (es : List ChunkId) (again : Bool) (data : ReadData) (s : State), AtEase s →
     s.sessions.table[i] = some x → x.kind = .album n title → x.closing = some cl → cl.turned = false →
     cl.failure = none → cl.extents = [.writing p k es 1 false again] →
     OutcomeGives d (.closeExtent i 0) .done data s (fun u =>
       u.sessions.table[i] =
           some { x with closing := some { cl with extents := [.written { place := p, count := k }] } } ∧
         u.catalog = { s.catalog with turnovers := s.catalog.turnovers ++ [i] } ∧
         u.mail = s.mail ++ (if s.catalog.turnovers = [] then [.turn i] else []) ∧
         ChangesOnly [.mail, .catalog, .sessions, .ckpt, .timers] s u)) ∧
  (∀ (d : DiskPort) (c : Checkpoint) (m : CkptMember) (data : ReadData) (s : State), s.stalled = none →
     s.ckpt.current = some c → c.image.isSome = true → (c.members[d.val]?).join = some m → m.step = .lastFlush →
     (∀ j, j ≠ d.val → ckptDone ((c.members[j]?).join) = true) → s.ckpt.pendingMark = false →
     (∀ (i : SessionNo) (x : Session) (cl : Closing), c.closers = [.session i] → s.sessions.table[i] = some x →
       x.closing = some cl → cl.turned = true →
       (x.kind = .backup → cl.made = [] → s.link.tx.length < 64 →
         OutcomeGives d (.ckptLastFlush c.generation) .done data s (fun u =>
           u.sessions.table[i] = none ∧ Hands [replyFrameOf s cl.hdr .ok (beBytes 4 cl.snapshot.toNat) false] s u ∧
             TimerStopped (sessionIdleTimer i) u ∧ Sends [.ctxUnbind i] s u ∧ u.ckpt.state = .idle ∧
             ChangesOnly [.sessions, .link, .mail, .ckpt, .timers] s u)) ∧
       (x.kind = .backup → cl.made = [] → 64 ≤ s.link.tx.length →
         OutcomeGives d (.ckptLastFlush c.generation) .done data s (fun u =>
           u.link = { s.link with txWait := s.link.txWait ++
               [{ frames := [replyFrameOf s cl.hdr .ok (beBytes 4 cl.snapshot.toNat) false], deed := some (.left i),
                  report := false }] } ∧
             u.ckpt.state = .idle ∧ ChangesOnly [.link, .ckpt] s u)) ∧
       (∀ (n : Nat) (title : Option (List Byte)) (pos : Nat) (p : Photo), x.kind = .album n title → cl.made = [pos] →
         s.catalog.photos[pos]? = some p → s.link.tx.length < 64 →
         OutcomeGives d (.ckptLastFlush c.generation) .done data s (fun u =>
           u.sessions.table[i] = none ∧ Hands [replyFrameOf s cl.hdr .ok [] false, holdingFrame [summaryFor p] s] s u ∧
             u.catalog = { s.catalog with announced := max s.catalog.announced p.seq } ∧ u.ckpt.state = .idle ∧
             ChangesOnly [.sessions, .catalog, .link, .mail, .ckpt, .timers] s u)) ∧
       (∀ (n : Nat) (title : Option (List Byte)) (pos : Nat) (p : Photo), x.kind = .album n title → cl.made = [pos] →
         s.catalog.photos[pos]? = some p → 64 ≤ s.link.tx.length →
         OutcomeGives d (.ckptLastFlush c.generation) .done data s (fun u =>
           u.link = { s.link with txWait := s.link.txWait ++
               [{ frames := [replyFrameOf s cl.hdr .ok [] false], deed := some (.left i), report := false },
                { frames := [holdingFrame [summaryFor p] s], deed := none, report := false }] } ∧
             u.catalog = { s.catalog with announced := max s.catalog.announced p.seq } ∧ u.ckpt.state = .idle ∧
             ChangesOnly [.catalog, .link, .ckpt] s u))) ∧
     (∀ (k : FetchNo) (x : Fetch) (p : Photo), c.closers = [.fetch k] → s.catalog.fetches[k] = some x →
       x.phase = .announcing → s.catalog.photos[x.photo]? = some p → s.catalog.wanted = [] → s.link.tx.length < 64 →
       OutcomeGives d (.ckptLastFlush c.generation) .done data s (fun u =>
         u.catalog.fetches[k] = none ∧ u.catalog.photos = s.catalog.photos ∧ Hands [holdingFrame [summaryFor p] s] s u ∧
           u.ckpt.state = .idle ∧ ChangesOnly [.catalog, .link, .ckpt, .timers] s u)) ∧
     (c.closers = [.power] →
       (s.ckpt.changed = false → s.verify.cursor = s.ckpt.capturedCursor →
         OutcomeGives d (.ckptLastFlush c.generation) .done data s (fun u =>
           u.ckpt.state = .idle ∧ Sends [.saved] s u ∧ ChangesOnly [.ckpt, .mail] s u)) ∧
       (s.ckpt.changed = true →
         OutcomeGives d (.ckptLastFlush c.generation) .done data s (fun u =>
           u.ckpt.state = .fencing ∧ Sends [.hold] s u ∧ ChangesOnly [.ckpt, .mail] s u))) ∧
     (c.closers = [.coldStart] → s.cold = .starting →
       OutcomeGives d (.ckptLastFlush c.generation) .done data s (fun u =>
         u.power.station = .awake ∧ u.cold = .finished ∧ u.ckpt.state = .idle)))

/-- The restore requests (R81, R85 to R87): the client's figures and its snapshots in order; a page of object records;
a dropped snapshot becomes RETIRING at the end of the retirement queue, where, with no page READ out and no earlier
item ready, its retirement begins at once, with the READ of its first page or, of a snapshot without elements, with its
end (R82, R83); a recipe or an element is read by one READ at SERVE class (one READ for a page of at most two blocks is
the model's choice, log 24); a BOX and a tag that is not registered are refused. A retirement page READ ends (R82, R83,
R84): its elements from the cursor on are dropped in order and the cursor passes them, to the next page or to the next
object; past the last object the snapshot leaves its client, its extents and its bytes go back, and a checkpoint is
requested; a READ that does not end DONE blocks the item, which goes to the queue's end. -/
def Obligations.RestoreReadsAnswer : Prop :=
  (∀ (h : ReqHdr) (s : State), AtEase s →
     (∀ (c : Fin 16) (k : Client), h.box = false → clientOf h.tag s = some c → s.sessions.clients[c] = some k →
       Completes (.listSnapshots h) s (fun u =>
         Answers h .ok
             (beBytes 6 k.quota ++ beBytes 6 k.used ++ beBytes 6 k.reserved ++ beBytes 1 k.retention ++
               beBytes 4 k.lastSnapshot.toNat ++
               k.snapshots.flatMap (fun n =>
                 beBytes 4 n.number.toNat ++ [if n.retiring then 1 else 0] ++ beBytes 6 n.logical ++
                   beBytes 4 n.objects.length)) false s u ∧
           ChangesOnly [.link, .mail] s u) ∧
       (∀ n : Snapshot, k.snapshots.find? (fun m => m.number = n.number) = some n → n.retiring = false →
         (∀ first : Nat,
           Completes (.listObjects h n.number first) s (fun u =>
             Answers h .ok
                 (((n.objects.drop first).take 64).flatMap (fun o =>
                   beBytes 8 o.id.toNat ++ beBytes 6 o.length ++ beBytes 4 o.chunks))
                 (decide (first + 64 < n.objects.length)) s u ∧
               ChangesOnly [.link, .mail] s u)) ∧
         (s.sessions.pageOut = true →
           Completes (.dropSnapshot h n.number) s (fun u =>
             u.sessions.retire = s.sessions.retire ++
                 [{ client := k.tag, snapshot := n.number, blocked := false, object := 0, element := 0 }] ∧
               u.sessions.clients[c] =
                 some { k with snapshots := k.snapshots.map (fun m =>
                   if m.number = n.number then { m with retiring := true } else m) } ∧
               Answers h .ok [] false s u ∧ ChangesOnly [.sessions, .link, .mail, .timers, .ckpt] s u)) ∧
         (s.sessions.pageOut = false → (∀ t ∈ s.sessions.retire, t.blocked = true) →
           (∀ (j : Nat) (e : Extent) (p : DiskPort), objectFrom 0 n.objects = some (j, e) →
             memberPresent e.place.member s = true → slotOf e.place.member s = some p →
             Completes (.dropSnapshot h n.number) s (fun u =>
               u.sessions.retire = s.sessions.retire ++
                   [{ client := k.tag, snapshot := n.number, blocked := false, object := j, element := 0 }] ∧
                 u.sessions.pageOut = true ∧
                 u.sessions.clients[c] =
                   some { k with snapshots := k.snapshots.map (fun m =>
                     if m.number = n.number then { m with retiring := true } else m) } ∧
                 Sends [.commandOffer p { requester := .retirePage, cls := .store, op := .read e.place.first 1 }]
                   (takeRequest (.dropSnapshot h n.number) s) u ∧
                 Answers h .ok [] false s u ∧ ChangesOnly [.sessions, .link, .mail, .timers, .ckpt] s u)) ∧
           (objectFrom 0 n.objects = none →
             Completes (.dropSnapshot h n.number) s (fun u =>
               u.sessions.retire = s.sessions.retire ∧ u.sessions.pageOut = false ∧
                 u.sessions.clients[c] =
                   some { k with snapshots := k.snapshots.filter (fun m => decide (m.number ≠ n.number)),
                                 used := k.used - n.logical } ∧
                 Sends [.checkpointRequest none] (takeRequest (.dropSnapshot h n.number) s) u ∧
                 Answers h .ok [] false s u ∧ ChangesOnly [.sessions, .link, .mail, .timers, .ckpt] s u))) ∧
         (∀ (o : ObjectRecord) (e : Extent) (d : DiskPort) (m : BlockMap) (first : Nat),
           n.objects.find? (fun y => y.id = o.id) = some o → o.extent = some e → first < o.chunks →
           slotOf e.place.member s = some d →
           s.alloc.members[d] = some { number := e.place.member, map := some m } →
           Completes (.getRecipeSnapshot h n.number o.id first) s (fun u =>
             Sends [.commandOffer d
                 { requester := .recipeRead
                     { hdr := h, form := .restore, skip := first % 204,
                       use := .page (min 64 (o.chunks - first)) (decide (first + 64 < o.chunks)) [] },
                   cls := .serve,
                   op := .read (e.place.first + first / 204)
                     ((first + min 64 (o.chunks - first) - 1) / 204 - first / 204 + 1) }]
                 (takeRequest (.getRecipeSnapshot h n.number o.id first) s) u ∧
               u.link.tx = s.link.tx ∧ ChangesOnly [.link, .mail] s u) ∧
           Completes (.getChunkSnapshot h n.number o.id first) s (fun u =>
             Sends [.commandOffer d
                 { requester := .recipeRead { hdr := h, form := .restore, skip := first % 204, use := .chunk },
                   cls := .serve, op := .read (e.place.first + first / 204) 1 }]
                 (takeRequest (.getChunkSnapshot h n.number o.id first) s) u ∧
               u.link.tx = s.link.tx ∧ ChangesOnly [.link, .mail] s u)))) ∧
     (∀ c : Instr, h.box = true ∨ clientOf h.tag s = none →
       (c = .listSnapshots h ∨ (∃ n a, c = .listObjects h n a) ∨ (∃ n, c = .dropSnapshot h n) ∨
         (∃ n o a, c = .getRecipeSnapshot h n o a) ∨ (∃ n o a, c = .getChunkSnapshot h n o a)) →
       Completes c s (fun u => Answers h .notPermitted [] false s u ∧ ChangesOnly [.link, .mail] s u))) ∧
  (∀ (d : DiskPort) (t : RetireItem) (rest : List RetireItem) (c : Fin 16) (k : Client) (n : Snapshot) (res : DiskResult)
     (data : ReadData) (s : State), AtEase s → s.sessions.retire = t :: rest → t.blocked = false →
     itemSnapshot t s = some (c, n) → s.sessions.clients[c] = some k →
     (∀ (o : ObjectRecord) (e : Extent) (bs : List Byte), n.objects[t.object]? = some o → o.extent = some e →
       res = .done → data = .bytes bs →
       let drops := ((elementsOf (min 204 (e.count - t.element / 204 * 204)) bs).drop (t.element % 204)).map Instr.drop
       (∀ p : DiskPort, (t.element / 204 + 1) * 204 < e.count → memberPresent e.place.member s = true →
         slotOf e.place.member s = some p →
         OutcomeGives d .retirePage res data s (fun u =>
           u.sessions = { s.sessions with
                            pageOut := true, retire := { t with element := (t.element / 204 + 1) * 204 } :: rest } ∧
             Sends (drops ++ [.commandOffer p { requester := .retirePage, cls := .store,
                                                op := .read (e.place.first + (t.element / 204 + 1)) 1 }]) s u ∧
             ChangesOnly [.sessions, .mail, .ckpt, .timers] s u)) ∧
       (∀ (i : Nat) (f : Extent) (p : DiskPort), e.count ≤ (t.element / 204 + 1) * 204 →
         objectFrom (t.object + 1) n.objects = some (i, f) → memberPresent f.place.member s = true →
         slotOf f.place.member s = some p →
         OutcomeGives d .retirePage res data s (fun u =>
           u.sessions = { s.sessions with pageOut := true, retire := { t with object := i, element := 0 } :: rest } ∧
             Sends (drops ++ [.commandOffer p { requester := .retirePage, cls := .store,
                                                op := .read f.place.first 1 }]) s u ∧
             ChangesOnly [.sessions, .mail, .ckpt, .timers] s u)) ∧
       (e.count ≤ (t.element / 204 + 1) * 204 → objectFrom (t.object + 1) n.objects = none →
         (∀ x ∈ rest, x.blocked = true) →
         OutcomeGives d .retirePage res data s (fun u =>
           u.sessions.retire = rest ∧ u.sessions.pageOut = false ∧
             u.sessions.clients[c] =
               some { k with snapshots := k.snapshots.filter (fun m => m.number ≠ n.number),
                             used := k.used - n.logical } ∧
             u.alloc =
               (n.objects.foldl (fun s o => match o.extent with | some e => freeExtent e s | none => s) s).alloc ∧
             Sends (drops ++ [.checkpointRequest none]) s u ∧
             ChangesOnly [.sessions, .alloc, .mail, .ckpt, .timers] s u))) ∧
     (res ≠ .done → (∀ x ∈ rest, x.blocked = true) →
       OutcomeGives d .retirePage res data s (fun u =>
         u.sessions = { s.sessions with pageOut := false, retire := rest ++ [{ t with blocked := true }] } ∧
           ChangesOnly [.sessions, .ckpt, .timers] s u)))

/-- VREAD_ANSWER (R190): the bytes go out in offset order, 1,440 to a DATA frame, the last of the rest, then REPLY OK
with no body; DAMAGED and BUSY go out as they are, and ABSENT as NOT_FOUND, or DAMAGED for an album's element (R87,
R111, R113). -/
def Obligations.ChunkAnswersInFrames : Prop :=
  ∀ (r : Reader) (s : State), AtEase s →
    (∀ bytes : List Byte,
      Completes (.vreadAnswer r (.good bytes)) s (fun u =>
        Hands ((List.range ((bytes.length + 1439) / 1440)).map (fun n =>
            frame s r.hdr.mac 0x71 0xC0 r.hdr.tag r.hdr.number
              (beBytes 4 (1440 * n) ++ (bytes.drop (1440 * n)).take 1440)) ++
          [replyFrameOf s r.hdr .ok [] false]) s u ∧ ChangesOnly [.link] s u)) ∧
    (∀ (o : VreadOutcome) (code : Code),
      (o = .damaged ∧ code = .damaged) ∨ (o = .busy ∧ code = .busy) ∨
        (o = .absent ∧ code = if r.form = .album then .damaged else .notFound) →
      Completes (.vreadAnswer r o) s (fun u => Answers r.hdr code [] false s u ∧ ChangesOnly [.link] s u))

/-! ### The album catalog -/

/-- LIST_ALBUM, GET_RECIPE and GET_CHUNK on an album, GET_CHUNK by print and CATALOG_SINCE (R100, R109 to R113): a
page of records behind the title and the counts; a HELD photo's recipe or element by one READ at SERVE class (one READ
for a page of at most two blocks is the model's choice, log 24); a photo held nowhere asleep is NOT_HELD with its
holders; a marked chunk is read at COPY class for a BOX; the own announced entries above a seq. -/
def Obligations.AlbumRequestsAnswer : Prop :=
  ∀ (h : ReqHdr) (album : Nat) (s : State), AtEase s →
    (∀ first : Nat, album ≤ 31 →
      Completes (.listAlbum h album first) s (fun u =>
        Answers h .ok
            (textBytes (titleOf album s) ++ beBytes 4 (albumPhotos album s).length ++
              beBytes 4 ((albumPhotos album s).filter (fun p => p.state = .held)).length ++
              (((albumPhotos album s).drop first).take 16).flatMap (fun p =>
                beBytes 8 p.id.toNat ++ beBytes 2 p.origin.toNat ++ beBytes 4 p.seq ++ beBytes 6 p.length ++
                  [if p.state = .held then 1 else 0] ++ beBytes 1 (if p.more then 5 else p.holders.length) ++
                  textBytes p.caption))
            (decide (first + 16 < (albumPhotos album s).length)) s u ∧
          ChangesOnly [.link, .mail] s u)) ∧
    (∀ c : Instr, 31 < album →
      (∃ n, c = .listAlbum h album n) ∨ (∃ p n, c = .getRecipeAlbum h album p n) ∨
        (∃ p n, c = .getChunkAlbum h album p n) →
      Completes c s (fun u => Answers h .badRequest [] false s u ∧ ChangesOnly [.link, .mail] s u)) ∧
    (∀ (p : Photo) (e : Extent) (d : DiskPort) (m : BlockMap) (n : Nat), album ≤ 31 →
      photoOf album p.id s = some p → p.state = .held → p.extent = some e → n < e.count →
      slotOf e.place.member s = some d →
      s.alloc.members[d] = some { number := e.place.member, map := some m } →
      Completes (.getRecipeAlbum h album p.id n) s (fun u =>
        Sends [.commandOffer d
            { requester := .recipeRead
                { hdr := h, form := .album, skip := n % 204,
                  use := .page (min 64 (e.count - n)) (decide (n + 64 < e.count))
                    (if n = 0 then beBytes 4 e.count ++ beBytes 6 p.length ++ textBytes p.caption else []) },
              cls := .serve,
              op := .read (e.place.first + n / 204) ((n + min 64 (e.count - n) - 1) / 204 - n / 204 + 1) }]
            (takeRequest (.getRecipeAlbum h album p.id n) s) u ∧
          u.link.tx = s.link.tx ∧ ChangesOnly [.link, .mail] s u) ∧
      Completes (.getChunkAlbum h album p.id n) s (fun u =>
        Sends [.commandOffer d
            { requester := .recipeRead { hdr := h, form := .album, skip := n % 204, use := .chunk }, cls := .serve,
              op := .read (e.place.first + n / 204) 1 }]
            (takeRequest (.getChunkAlbum h album p.id n) s) u ∧
          u.link.tx = s.link.tx ∧ ChangesOnly [.link, .mail] s u)) ∧
    (∀ (p : Photo) (n : Nat) (t : Tag), album ≤ 31 → photoOf album p.id s = some p → p.state ≠ .held →
      t ∈ p.holders → heardOf t s ≠ some .asleep →
      Completes (.getChunkAlbum h album p.id n) s (fun u =>
        Answers h .notHeld
            (beBytes 1 p.holders.length ++ [if p.more then 1 else 0] ++
              p.holders.flatMap (fun t => beBytes 2 t.toNat)) false s u ∧
          ChangesOnly [.link, .mail] s u)) ∧
    (∀ id : ChunkId,
      (h.box = false →
        Completes (.getChunkPrint h id) s (fun u =>
          Answers h .notPermitted [] false s u ∧ ChangesOnly [.link, .mail] s u)) ∧
      (∀ (pos : Nat) (e : Entry), h.box = true → findEntry id s = some (pos, e) →
        (e.mark = true →
          Completes (.getChunkPrint h id) s (fun u =>
            Sends [.vread id .copying { hdr := h, form := .print }] (takeRequest (.getChunkPrint h id) s) u ∧
              u.link.tx = s.link.tx ∧ ChangesOnly [.link, .mail, .index] s u)) ∧
        (e.mark = false →
          Completes (.getChunkPrint h id) s (fun u =>
            Answers h .notFound [] false s u ∧ ChangesOnly [.link, .mail, .index] s u)))) ∧
    (∀ (origin : Tag) (after : Nat),
      (h.box = false →
        Completes (.catalogSince h origin after) s (fun u =>
          Answers h .notPermitted [] false s u ∧ ChangesOnly [.link, .mail] s u)) ∧
      (h.box = true → origin ≠ s.conf.tag →
        Completes (.catalogSince h origin after) s (fun u =>
          Answers h .badRequest [] false s u ∧ ChangesOnly [.link, .mail] s u)) ∧
      (h.box = true → origin = s.conf.tag →
        Completes (.catalogSince h origin after) s (fun u =>
          Answers h .ok
              (beBytes 1 (min 32 (announcedAbove after s).length) ++
                ((announcedAbove after s).take 32).flatMap (fun p =>
                  beBytes 1 p.album ++ beBytes 8 p.id.toNat ++ beBytes 2 p.origin.toNat ++ beBytes 4 p.seq ++
                    beBytes 6 p.length))
              (decide (32 < (announcedAbove after s).length)) s u ∧
            ChangesOnly [.link, .mail] s u)))

/-- HOLDING, CATCHUP_START and WANTED expiry (R95 to R99, R101 to R103): a summary of an unknown key makes an entry,
KNOWN with holders enough and else WANTED after the fetch delay; from its own origin it advances the caught-up seq by 1
where it is the next, a seq or length outside the ranges of an entry being recorded whole (the model's choice, log
44), and from another station it advances none and makes no origin entry (the model's choice, log 27);
the oldest pending origin that is AWAKE is asked for what it announced; the due head of the wanted list becomes a fetch
from its first holder that is AWAKE, in the lower FREE context (the model's choice, log 40). REPLY_FRAME (R99, R193):
matched to the only entry, a catch-up's, the entry is freed; any code but OK ends the conversation and stops REPLY, and
a page of OK that leaves more to come brings the next CATALOG_SINCE, after the page's highest seq; with no matching
entry the frame changes no unit but the sender's peer entry. -/
def Obligations.CatalogFollowsItsPeers : Prop :=
  (∀ (s : State), AtEase s → s.power.station = .awake →
     (∀ (f : RxFrame) (h : ReqHdr) (target : Tag) (more : Bool) (m : Summary), s.link.up = true →
       validate s f = .good h target more (.holding [m]) → h.box = true → h.tag ≠ s.conf.tag →
       summaryBad m = false → findPhoto m.album m.id s = none → positionFree s = true → s.catalog.wanted = [] →
       Completes (.holding f) s (fun u =>
         u.catalog.photos = s.catalog.photos ++
             [{ album := m.album, id := m.id, origin := m.origin, seq := m.seq, length := m.length, caption := none,
                state := if s.conf.target ≤ 1 then .known else .wanted, holders := [h.tag], more := false,
                extent := none }] ∧
           (s.conf.target ≤ 1 → u.catalog.wanted = []) ∧
           (1 < s.conf.target → u.catalog.wanted =
             [{ pos := s.catalog.photos.length,
                due := s.now + BitVec.ofNat 32 (2 * (s.conf.tag.toNat % 8 + 1)) }]) ∧
           (m.origin ≠ h.tag → u.catalog.origins = s.catalog.origins) ∧
           (m.origin = h.tag →
             (∀ (k : Nat) (o : Origin), findOrigin h.tag s = some k → s.catalog.origins[k]? = some o →
               u.catalog.origins =
                 if m.seq = o.caughtUp + 1 then s.catalog.origins.set k { o with caughtUp := m.seq }
                 else s.catalog.origins) ∧
             (findOrigin h.tag s = none →
               (s.catalog.origins.length < 32 →
                 u.catalog.origins =
                   s.catalog.origins ++ [{ tag := h.tag, caughtUp := if m.seq = 1 then 1 else 0 }]) ∧
               (32 ≤ s.catalog.origins.length → u.catalog.origins = s.catalog.origins))) ∧
           u.link = s.link ∧ ChangesOnly [.catalog, .peers, .timers, .ckpt] s u)) ∧
     (∀ (t : Tag) (ts : List Tag) (n : ReqNumber), s.catalog.fillDue = false → s.catalog.talk = none →
       s.catalog.pending = t :: ts → heardOf t s = some .awake → s.link.outgoing = [] → n = s.link.nextNumber →
       Completes .catchupStart s (fun u =>
         u.catalog = { s.catalog with talk := some { origin := t, after := caughtUp t s }, pending := ts } ∧
           u.link.outgoing =
             [{ number := n, target := t, kind := .catalogSince, asker := .catchup,
                deadline := s.link.ticks + 5120, made := s.link.made }] ∧
           u.link.nextNumber = (if n = 0xFFFF then 1 else n + 1) ∧
           Hands [frame s (macFor t s) 0x33 0x80 t n (beBytes 2 t.toNat ++ beBytes 4 (caughtUp t s))] s u ∧
           TimerStarted replyTimer 5120 u ∧ ChangesOnly [.catalog, .link, .timers] s u)) ∧
     (∀ (w : WantedItem) (p : Photo) (source : Tag), ExpiryDue wantedTimer .first s → s.catalog.wanted = [w] →
       (w.due ≤ s.now) → s.catalog.photos[w.pos]? = some p → holderCount p < s.conf.target →
       s.catalog.fetches[(0 : FetchNo)] = none → p.holders.find? (fun t => heardOf t s = some .awake) = some source →
       s.link.outgoing = [] →
       Completes .wantedExpiry s (fun u =>
         u.catalog.fetches[(0 : FetchNo)] =
             some { serial := s.catalog.nextSerial, photo := w.pos, source := source, phase := .recipe, count := 0,
                    caption := none, elems := [], next := 0, outstanding := some .getRecipe, buffer := none,
                    more := false, extent := .absent } ∧
           u.catalog.photos = s.catalog.photos.set w.pos { p with state := .fetching } ∧ u.catalog.wanted = [] ∧
           TimerStopped wantedTimer u ∧
           Hands [frame s (macFor source s) 0x30 0x80 source s.link.nextNumber
             ([0x01] ++ beBytes 1 p.album ++ beBytes 8 p.id.toNat ++ beBytes 4 0)] s u ∧
           TimerStarted replyTimer 5120 u ∧ ChangesOnly [.catalog, .link, .timers, .ckpt] s u))) ∧
  (∀ (f : RxFrame) (h : ReqHdr) (target : Tag) (more : Bool) (code : Byte) (body : List Byte) (s : State),
     s.link.up = true → s.power.station = .awake → AtEase s →
     validate s f = .good h target more (.reply code body) →
     (∀ (e : OutEntry) (t : Conversation), s.link.outgoing = [e] → e.number = h.number → e.target = h.tag →
       e.asker = .catchup → s.link.askWait = [] → s.catalog.talk = some t →
       (code ≠ 0 → s.catalog.pending = [] →
         Completes (.replyFrame f) s (fun u =>
           u.link = { s.link with outgoing := [] } ∧ TimerStopped replyTimer u ∧
             u.catalog = { s.catalog with talk := none } ∧ ChangesOnly [.link, .catalog, .peers, .timers] s u)) ∧
       (∀ (m : Summary) (pos : Nat) (p : Photo), code = 0 → more = true → body = 1 :: summaryBytes m →
         summaryOf (summaryBytes m) = m → summaryBad m = false → m.origin = t.origin → t.origin ≠ s.conf.tag →
         (findOrigin t.origin s).isSome → m.seq ≤ caughtUp t.origin s →
         findPhoto m.album m.id s = some pos → s.catalog.photos[pos]? = some p → p.origin = m.origin →
         p.seq = m.seq → p.length = m.length → t.origin ∈ p.holders → p.state = .held →
         Completes (.replyFrame f) s (fun u =>
           u.catalog = { s.catalog with talk := some { origin := t.origin, after := max t.after m.seq } } ∧
             u.link.outgoing.map (·.kind) = [.catalogSince] ∧ u.link.outgoing.map (·.asker) = [.catchup] ∧
             TimerStarted replyTimer 5120 u ∧
             Hands [frame s (macFor t.origin u) 0x33 0x80 t.origin s.link.nextNumber
               (beBytes 2 t.origin.toNat ++ beBytes 4 (max t.after m.seq))] s u ∧
             ChangesOnly [.link, .catalog, .peers, .timers] s u))) ∧
     (matchEntry h s = none →
       Completes (.replyFrame f) s (fun u => u.link = s.link ∧ ChangesOnly [.peers, .timers] s u)))

/-- FETCH_CLAIM_OUTCOME and FETCH_SETTLE_REPORT (R105, R107, R108): NEEDS_BYTES takes a buffer, the lowest free one (the
model's choice, log 11), and asks the source for the chunk; an outcome that took a reference settles the element or lets
it wait, and the next element is claimed; one of a fetch that is gone gives its reference back; STORED settles waiting
elements, and LOST fails the fetch: the references it holds are dropped, its context is FREE, and the photo is WANTED
again, due in 600 s. A fetch's answers (R104, R105, R107), by REPLY_FRAME from its source in a state with one outgoing
request: a first recipe page that keeps the rules, of more than 64 elements too (the model's choice, log 47), sets count
and caption and its first element is claimed; a refused page fails the fetch, and the photo is WANTED again, due in 600
s; the closing REPLY of GET_CHUNK, with bytes of the element's length and print, claims the chunk with the buffer. A
fetch comes to its end (R106): with its last element settled the recipe's extent is placed and written; the last WRITE
marks every element, makes the photo HELD with this box among its holders, and requests the checkpoint that covers it.
-/
def Obligations.FetchesClaimTheirElements : Prop :=
  (∀ (f : FetchNo) (x : Fetch) (pos : Nat) (e : FetchElem) (s : State), AtEase s → s.catalog.fetches[f] = some x →
     x.elems[pos]? = some e →
     (∀ b : BufferNo, x.next = pos → freeBuffer s = some b → s.link.outgoing = [] →
       Completes (.fetchClaimOutcome f x.serial pos e.id .needsBytes) s (fun u =>
         u.catalog.fetches[f] =
             some { x with outstanding := some .getChunk, buffer := some b,
                           elems := x.elems.set pos { e with standing := .bare } } ∧
           u.engine.buffers[b] = { state := .lent (.fetch f), bytes := [] } ∧
           Hands [frame s (macFor x.source s) 0x31 0x80 x.source s.link.nextNumber
             ([0x02] ++ (beBytes 16 e.id.print.toNat ++ beBytes 4 e.id.length))] s u ∧
           TimerStarted replyTimer 5120 u ∧ ChangesOnly [.catalog, .engine, .link, .timers, .ckpt] s u)) ∧
     (∀ (r : ClaimResult) (y : FetchElem), r ≠ .needsBytes → r ≠ .indexFull → x.elems[pos + 1]? = some y →
       Completes (.fetchClaimOutcome f x.serial pos e.id r) s (fun u =>
         u.catalog.fetches[f] =
             some { x with
               phase := .chunks, next := pos + 1,
               elems := x.elems.set pos { e with standing := if r = .hit then .settled else .waiting } } ∧
           Sends [.claim { id := y.id, wanted := .two, claimant := .fetch f x.serial (pos + 1), buffer := none }] s u ∧
           ChangesOnly [.catalog, .mail, .timers, .ckpt] s u)) ∧
     (∀ (serial : Word) (id : ChunkId) (r : ClaimResult), serial ≠ x.serial → r ≠ .needsBytes → r ≠ .indexFull →
       Completes (.fetchClaimOutcome f serial pos id r) s (fun u =>
         Sends [.drop id] s u ∧ ChangesOnly [.mail] s u)) ∧
     (e.standing = .waiting → (∀ g : FetchNo, g ≠ f → s.catalog.fetches[g] = none) →
       (x.phase ≠ .settling →
         Completes (.fetchSettleReport e.id .stored) s (fun u =>
           u.catalog.fetches[f] =
               some { x with
                 elems := x.elems.map (fun y =>
                   if y.id = e.id ∧ y.standing = .waiting then { y with standing := .settled } else y) } ∧
             u.mail = s.mail ∧ ChangesOnly [.catalog, .timers, .ckpt] s u)) ∧
       (∀ (r : Settled) (p : Photo), r ≠ .stored → s.power.station = .awake → s.now.toNat + 600 < 2 ^ 32 →
         (∀ a ∈ s.link.outgoing, a.asker ≠ .fetch f) → s.link.askWait = [] → x.buffer = none → x.extent = .absent →
         s.catalog.photos[x.photo]? = some p → s.catalog.wanted = [] →
         Completes (.fetchSettleReport e.id r) s (fun u =>
           u.catalog.fetches[f] = none ∧ u.catalog.photos = s.catalog.photos.set x.photo { p with state := .wanted } ∧
             u.catalog.wanted = [{ pos := x.photo, due := s.now + 600 }] ∧
             Sends ((x.elems.filter (fun y => y.standing = .settled || y.standing = .waiting)).map
               (fun y => Instr.drop y.id)) s u ∧
             u.link = s.link ∧ TimerStarted wantedTimer 600 u ∧
             ChangesOnly [.catalog, .engine, .mail, .timers, .ckpt] s u)))) ∧
  (∀ (f : RxFrame) (h : ReqHdr) (target : Tag) (more : Bool) (code : Byte) (body : List Byte) (k : FetchNo) (x : Fetch)
     (e : OutEntry) (p : Photo) (s : State), s.link.up = true → s.power.station = .awake → AtEase s →
     validate s f = .good h target more (.reply code body) → s.link.outgoing = [e] → e.number = h.number →
     e.target = h.tag → e.asker = .fetch k → s.link.askWait = [] → s.catalog.fetches[k] = some x →
     s.catalog.photos[x.photo]? = some p →
     (∀ (n len : Nat) (caption : Option (List Byte)) (tail : List Byte) (c : ChunkId) (cs : List ChunkId),
       e.kind = .getRecipe → x.elems = [] → x.next = 0 → code = 0 → pageHead body = some (n, len, caption, tail) →
       len = p.length → pageElements tail = some (c :: cs) → n ≠ 0 → c.print.setWidth 64 = p.id →
       (∀ y ∈ c :: cs, 1 ≤ y.length ∧ y.length ≤ 131072) → slotsUsed s + (cs.length + 1) ≤ 4194304 →
       Completes (.replyFrame f) s (fun u =>
         u.catalog.fetches[k] =
             some { x with outstanding := none, count := n, caption := caption, more := more, phase := .chunks,
                           elems := (c :: cs).map (fun y => { id := y, standing := .unclaimed }) } ∧
           u.link.outgoing = [] ∧ TimerStopped replyTimer u ∧
           Sends [.claim { id := c, wanted := .two, claimant := .fetch k x.serial 0, buffer := none }] s u ∧
           ChangesOnly [.link, .catalog, .peers, .mail, .ckpt, .timers] s u)) ∧
     (e.kind = .getRecipe → x.elems = [] → code ≠ 0 → x.buffer = none → x.extent = .absent → s.catalog.wanted = [] →
       s.now.toNat + 600 < 2 ^ 32 →
       Completes (.replyFrame f) s (fun u =>
         u.catalog.fetches[k] = none ∧ u.catalog.photos = s.catalog.photos.set x.photo { p with state := .wanted } ∧
           u.catalog.wanted = [{ pos := x.photo, due := s.now + 600 }] ∧ TimerStarted wantedTimer 600 u ∧
           u.link.outgoing = [] ∧ TimerStopped replyTimer u ∧ u.mail = s.mail ∧
           ChangesOnly [.link, .catalog, .engine, .peers, .ckpt, .timers] s u)) ∧
     (∀ (b : BufferNo) (c : FetchElem), e.kind = .getChunk → code = 0 → x.buffer = some b → x.elems[x.next]? = some c →
       (s.engine.buffers[b]).bytes.length = c.id.length → printOf (s.engine.buffers[b]).bytes = c.id.print →
       Completes (.replyFrame f) s (fun u =>
         u.catalog.fetches[k] =
             some { x with outstanding := none, buffer := none,
                           elems := x.elems.set x.next { c with standing := .unclaimed } } ∧
           u.engine.buffers[b] = { state := .lent .index, bytes := (s.engine.buffers[b]).bytes } ∧
           u.link.outgoing = [] ∧
           Sends [.claim { id := c.id, wanted := .two, claimant := .fetch k x.serial x.next, buffer := some b }] s u ∧
           ChangesOnly [.link, .catalog, .engine, .peers, .mail, .ckpt, .timers] s u))) ∧
  (∀ (k : FetchNo) (x : Fetch) (p : Photo) (s : State), AtEase s → s.catalog.fetches[k] = some x →
     s.catalog.photos[x.photo]? = some p →
     (∀ (c : FetchElem) (q : Place) (d t : DiskPort) (s' : State), x.phase = .settling → x.elems = [c] →
       c.standing = .waiting → (∀ j, j ≠ k → s.catalog.fetches[j] = none) → placeOne 1 [] s = some (d, q, s') →
       slotOf q.member s = some t →
       Completes (.fetchSettleReport c.id .stored) s (fun u =>
         u.catalog.fetches[k] =
             some { x with phase := .extent, elems := [{ c with standing := .settled }],
                           extent := .writing q 1 [c.id] 1 false false } ∧
           u.alloc = s'.alloc ∧
           Sends [.commandOffer t { requester := .fetchExtent k, cls := .metadata,
                                    op := .write q.first 1 (.elements [c.id]) }] s u ∧
           ChangesOnly [.catalog, .alloc, .mail, .ckpt, .timers] s u)) ∧
     (∀ (d : DiskPort) (q : Place) (n : Nat) (es : List ChunkId) (again : Bool) (data : ReadData), x.phase = .extent →
       x.extent = .writing q n es 1 false again →
       OutcomeGives d (.fetchExtent k) .done data s (fun u =>
         u.catalog.fetches[k] = some { x with phase := .announcing, elems := [], extent := .absent } ∧
           u.catalog.photos =
             s.catalog.photos.set x.photo { ownJoins s.conf.tag p with
               extent := some { place := q, count := n }, caption := x.caption, state := .held } ∧
           u.catalog.marksOut = s.catalog.marksOut + x.elems.length ∧
           Sends (x.elems.map (fun e => Instr.mark e.id) ++ [.checkpointRequest (some (.fetch k))]) s u ∧
           ChangesOnly [.catalog, .mail, .ckpt, .timers] s u)))

/-! ### The verify and repair unit -/

/-- VREAD (R115, R116): a STORED entry is held and its copy read at the reader's class; an entry being written is
awaited with its settle; a chunk without an entry is ABSENT, and an unmarked LOST one DAMAGED. -/
def Obligations.VerifiedReadsBegin : Prop :=
  ∀ (id : ChunkId) (cls : ServiceClass) (reader : Reader) (s : State), AtEase s → findRecord id s = none →
    s.verify.quietDue = false →
    (∀ (pos : Nat) (e : Entry) (side : CopySide) (p : Place) (d : DiskPort), findEntry id s = some (pos, e) →
      e.state = .stored → e.holds < 128 → chooseCopy e.copyA e.copyB [] s = some (side, p) →
      slotOf p.member s = some d →
      Completes (.vread id cls reader) s (fun u =>
        findEntry id u = some (pos, { e with holds := e.holds + 1 }) ∧
          u.verify = { s.verify with readsOut := s.verify.readsOut + 1 } ∧
          Sends [.commandOffer d
            { requester := .vread { id := id, cls := cls, reader := reader, copyA := e.copyA, copyB := e.copyB,
                                    mark := e.mark, side := side, tried := [side] },
              cls := cls, op := .read p.first (copyBlocks id.length) }] s u ∧
          ChangesOnly [.index, .verify, .mail] s u)) ∧
    (∀ (pos : Nat) (e : Entry), findEntry id s = some (pos, e) → e.state = .writing →
      s.verify.records.length < 16 →
      Completes (.vread id cls reader) s (fun u =>
        u.verify.records = s.verify.records ++
            [{ id := id, phase := .settleWait, hold := false, waiters := [(reader, cls)], bad := [], gone := [],
               tried := [], buffer := none, reading := false, settle := none }] ∧
          ChangesOnly [.verify] s u)) ∧
    (findEntry id s = none →
      Completes (.vread id cls reader) s (fun u =>
        Sends [.vreadAnswer reader .absent] s u ∧ ChangesOnly [.mail] s u)) ∧
    (∀ (pos : Nat) (e : Entry), findEntry id s = some (pos, e) → e.state = .lost → e.mark = false →
      Completes (.vread id cls reader) s (fun u =>
        Sends [.vreadAnswer reader .damaged] s u ∧ ChangesOnly [.mail] s u))

/-- RECOPY_ANSWER, VERIFY_SETTLE_REPORT and REMOVAL_NOTICE (R116, R121, R122): the record closes, its hold and its
buffer go back, and its waiters are told DAMAGED by a settle report of LOST and ABSENT by a removal; a settle report of
STORED has a record with waiters take a hold and read copy A for them. A READ of a local copy ends for a record (R119):
good bytes answer its waiters and go to the index with a RECOPY, whose purpose is REPLACE of the other copy where that
one is known bad, also of an entry met DOUBTFUL (the model's choice, log 44), and else REPLACE ALL; bad bytes make the
entry DOUBTFUL and the next copy is read; a fault of the disk leaves the entry as it is and the next copy is read. -/
def Obligations.RecordsClose : Prop :=
  (∀ (id : ChunkId) (r : RepairRecord) (s : State), AtEase s → s.verify.records = [r] → r.id = id →
     s.verify.quietDue = false → s.verify.talk = none → s.verify.order = [] →
     (∀ (b : BufferNo) (res : RecopyResult), r.buffer = some b → r.phase = .recopying → s.engine.order = [] →
       r.hold = true → res ≠ .unmirrored →
       Completes (.recopyAnswer .record id b res) s (fun u =>
         u.verify = { s.verify with records := [] } ∧ u.engine.buffers[b] = { state := .free, bytes := [] } ∧
           Sends [.readEnd id] s u ∧ ChangesOnly [.verify, .engine, .mail] s u)) ∧
     (r.buffer = none → r.hold = false →
       (∀ res : Settled, res ≠ .stored → r.phase = .settleWait →
         Completes (.verifySettleReport id res) s (fun u =>
           u.verify = { s.verify with records := [] } ∧
             Sends (r.waiters.map (fun w => Instr.vreadAnswer w.1 .damaged)) s u ∧
             ChangesOnly [.verify, .engine, .mail] s u)) ∧
       (∀ (w : Reader) (pos : Nat) (e : Entry) (p : Place) (d : DiskPort), r.phase = .settleWait →
         r.waiters = [(w, .serve)] → findEntry id s = some (pos, e) → e.state = .stored → e.holds < 128 →
         e.copyA = some p → copyReady p s = true → missingCopy p s = false → slotOf p.member s = some d →
         Completes (.verifySettleReport id .stored) s (fun u =>
           findEntry id u = some (pos, { e with holds := e.holds + 1 }) ∧
             u.verify = { s.verify with
               records := [{ r with phase := .localCopy, hold := true, reading := true, bad := [], gone := [],
                                    settle := none }],
               readsOut := s.verify.readsOut + 1 } ∧
             Sends [.commandOffer d { requester := .recordServe
                                        { id := id, copyA := e.copyA, copyB := e.copyB, mark := e.mark, side := .a,
                                          tried := [.a] },
                                      cls := .serve,
                                      op := .read p.first (copyBlocks id.length) }] s u ∧
             ChangesOnly [.verify, .index, .engine, .mail] s u)) ∧
       (r.waiters = [] → r.phase = .settleWait →
         Completes (.verifySettleReport id .stored) s (fun u =>
           u.verify = { s.verify with records := [] } ∧ u.mail = s.mail ∧ ChangesOnly [.verify, .engine] s u)) ∧
       Completes (.removalNotice id) s (fun u =>
         u.verify = { s.verify with records := [] } ∧
           Sends (r.waiters.map (fun w => Instr.vreadAnswer w.1 .absent)) s u ∧
           ChangesOnly [.verify, .engine, .mail] s u))) ∧
  (∀ (d : DiskPort) (id : ChunkId) (r : RepairRecord) (b : BufferNo) (pos : Nat) (e : Entry) (res : DiskResult)
     (data : ReadData) (s : State), AtEase s → s.verify.records = [r] → r.id = id → r.phase = .localCopy →
     r.reading = true → r.settle = none → r.buffer = some b → s.verify.quietDue = false →
     findEntry id s = some (pos, e) →
     (∀ (side : CopySide) (bs : List Byte), goodBytes id res data = some bs →
       OutcomeGives d (.recordRead id side) res data s (fun u =>
         u.verify = { s.verify with
                        records := [{ r with waiters := [], phase := .recopying, reading := false }],
                        readsOut := s.verify.readsOut - 1 } ∧
           (u.engine.buffers[b]).bytes = bs ∧
           Sends (r.waiters.map (fun w => Instr.vreadAnswer w.1 (.good bs)) ++
             [.recopy { id := id, purpose := localPurpose r side, buffer := b, sender := .record }]) s u ∧
           ChangesOnly [.verify, .engine, .mail] s u)) ∧
     (∀ (p : Place) (t : DiskPort), goodBytes id res data = none → r.bad = [] → r.gone = [] → e.copyB = some p →
       missingCopy p s = false → slotOf p.member s = some t →
       (res ≠ .diskFault → e.state = .stored →
         OutcomeGives d (.recordRead id .a) res data s (fun u =>
           findEntry id u = some (pos, { e with state := .doubtful }) ∧
             u.verify.records = [{ r with bad := [.a] }] ∧
             Sends [.commandOffer t { requester := .recordRead id .b, cls := .copying,
                                      op := .read p.first (copyBlocks id.length) }] s u ∧
             ChangesOnly [.index, .verify, .mail, .ckpt, .timers] s u)) ∧
       (res = .diskFault →
         OutcomeGives d (.recordRead id .a) res data s (fun u =>
           u.verify.records = [{ r with gone := [.a] }] ∧
             Sends [.commandOffer t { requester := .recordRead id .b, cls := .copying,
                                      op := .read p.first (copyBlocks id.length) }] s u ∧
             ChangesOnly [.verify, .mail] s u))))

/-- PEER_REPAIR_START, REMIRROR_JOB_START, HUSH, UNHUSH and SCRUB expiry (R123, R125 to R130): the oldest record asks
the first box AWAKE for the chunk, or with none is condemned; the oldest listed chunk becomes the job, its sound copy
read into the lowest free buffer (the model's choice, log 11); HUSH ends the scrub pass, and a quiet unit answers
QUIET; a pass goes 256 positions on over an empty index, and at a marked STORED entry with both copies on READY disks
it reads copy A at SCRUB class under a hold. -/
def Obligations.RepairWorkGoesOn : Prop :=
  ∀ (id : ChunkId) (s : State), AtEase s →
    (∀ (r : RepairRecord) (w : Reader × ServiceClass), s.verify.records = [r] → r.id = id → r.phase = .peer →
      s.verify.talk = none → s.verify.order = [id] → s.verify.quietDue = false → r.waiters = [w] →
      (∀ (b : BufferNo) (t : Tag) (ts : List Tag), awakeBoxes s = t :: ts → r.tried = [] →
        heardOf t s = some .awake → r.buffer = some b → s.link.outgoing = [] →
        Completes .peerRepairStart s (fun u =>
          u.verify.talk = some { id := id, candidates := ts, target := some t } ∧ u.verify.order = [] ∧
            u.engine.buffers[b] = { s.engine.buffers[b] with bytes := [] } ∧
            Hands [frame s (macFor t s) 0x31 0x80 t s.link.nextNumber
              ([0x02] ++ (beBytes 16 id.print.toNat ++ beBytes 4 id.length))] s u ∧
            TimerStarted replyTimer 5120 u ∧ ChangesOnly [.verify, .engine, .link, .timers] s u)) ∧
      (∀ (pos : Nat) (e : Entry), awakeBoxes s = [] → r.buffer = none → r.hold = false →
        findEntry id s = some (pos, e) → e.state = .doubtful →
        Completes .peerRepairStart s (fun u =>
          findEntry id u = some (pos, { e with state := .lost }) ∧ flagSet .lostSeen u = true ∧
            u.verify.records = [] ∧ Sends [.vreadAnswer w.1 .damaged] s u ∧
            ChangesOnly [.verify, .index, .engine, .report, .mail, .timers, .ckpt] s u))) ∧
    (∀ (rest : List ChunkId) (pos : Nat) (e : Entry) (p : Place) (d : DiskPort) (b : BufferNo),
      s.verify.mirrors = id :: rest → s.power.station = .awake → s.verify.hushed = false → s.verify.job = none →
      findEntry id s = some (pos, e) → e.state = .stored → e.mark = true → e.holds < 128 → e.copyA = some p →
      e.copyB = none → missingCopy p s = false → 2 ≤ healthyMembers s → slotOf p.member s = some d →
      freeBuffer s = some b →
      Completes .remirrorJobStart s (fun u =>
        u.verify.job = some { id := id, purpose := .addB, source := p, side := .a, buffer := some b } ∧
          u.verify.mirrors = rest ∧ u.engine.buffers[b] = { state := .lent .job, bytes := [] } ∧
          findEntry id u = some (pos, { e with holds := e.holds + 1 }) ∧
          Sends [.commandOffer d { requester := .remirrorRead id, cls := .copying,
                                   op := .read p.first (copyBlocks id.length) }] s u ∧
          ChangesOnly [.verify, .index, .engine, .mail] s u)) ∧
    (s.verify.records = [] → s.verify.job = none →
      Completes .hush s (fun u =>
        u.verify = { s.verify with hushed := true, pass := none, quietDue := decide (s.verify.readsOut ≠ 0) } ∧
          Sends (if s.verify.readsOut = 0 then [.quiet] else []) s u ∧ ChangesOnly [.verify, .mail] s u)) ∧
    (s.verify.mirrors = [] → s.verify.order = [] →
      Completes .unhush s (fun u =>
        u.verify = { s.verify with hushed := false, quietDue := false } ∧ ChangesOnly [.verify] s u)) ∧
    (ExpiryDue scrubTimer .first s → s.power.station = .awake → s.verify.hushed = false → s.verify.pass = none →
      s.verify.scrubOut = false → s.index.entries = [] → s.verify.cursor < s.index.capacity + 65536 →
      Completes .scrubExpiry s (fun u =>
        u.verify = { s.verify with cursor := (s.verify.cursor + 256) % (s.index.capacity + 65536) } ∧
          OtherTimersSame [scrubTimer] s u ∧ ChangesOnly [.verify, .timers] s u)) ∧
    (∀ (e : Entry) (p q : Place) (d : DiskPort), ExpiryDue scrubTimer .first s → s.power.station = .awake →
      s.verify.hushed = false → s.verify.pass = none → s.verify.scrubOut = false →
      entryAt s.verify.cursor s = some e → findEntry e.id s = some (s.verify.cursor, e) → e.mark = true →
      e.state = .stored → e.holds < 128 → e.copyA = some p → e.copyB = some q → missingCopy p s = false →
      missingCopy q s = false → copyReady p s = true → slotOf p.member s = some d →
      Completes .scrubExpiry s (fun u =>
        findEntry e.id u = some (s.verify.cursor, { e with holds := e.holds + 1 }) ∧
          u.verify = { s.verify with pass := some { left := 256, id := some e.id, todo := [.b] }, scrubOut := true,
                                     readsOut := s.verify.readsOut + 1 } ∧
          Sends [.commandOffer d { requester := .scrubRead e.id .a, cls := .scrub,
                                   op := .read p.first (copyBlocks e.id.length) }] s u ∧
          OtherTimersSame [scrubTimer] s u ∧ ChangesOnly [.verify, .index, .mail, .timers] s u))

/-! ### The checkpoint unit -/

/-- CHANGE_REPORT, CHECKPOINT_REQUEST, CHECKPOINT expiry, PARK_SAVE and its withdrawal (R134, R135, R139): a change
makes the image CHANGED and starts CHECKPOINT, in COLD_START at its end alone (R179, log 38), and a move of the scrub
cursor is no change; a request in IDLE begins a checkpoint with HOLD, and later ones wait with the pending mark;
PARK_SAVE is answered SAVED where the image is level; a withdrawn one leaves the closers. A member goes on in a
checkpoint (R137): while pages are left one WRITE at a time keeps 8 of them queued; after the last page comes FLUSH,
then the root, then FLUSH; an outcome that carries another generation than that of the checkpoint in progress is
discarded, as one of an earlier checkpoint (the model's reading of R137: outcomes are told apart by the generation they
carry, log 36). A member fails with its command: what the unit keeps back for its port, and its offers that the port has
not taken (the model's choice, log 47), fall away, while the queue and the offer line stand. A checkpoint completes with
its last member (R138): the generation and the member's half are noted and the unit is IDLE, or begins the next one
where requests are marked pending; a failure of every member halts the station for CHECKPOINT; the failure of one beside
a success leaves that member's last generation as it was. -/
def Obligations.CheckpointsBegin : Prop :=
  (∀ (s : State),
     (∀ part : ImagePart, s.ckpt.state ≠ .halted → s.ckpt.current = none → s.stalled = none →
       Completes (.changeReport part) s (fun u =>
         (s.ckpt.changed = true ∨ part = .scrub → u = s) ∧
           (s.ckpt.changed = false → part ≠ .scrub →
             u.ckpt = { s.ckpt with changed := true } ∧
               (s.power.station ≠ .coldStart → TimerStarted checkpointTimer 600 u) ∧
               (s.power.station = .coldStart → u.timers = s.timers) ∧
               OtherTimersSame [checkpointTimer] s u ∧ ChangesOnly [.ckpt, .timers] s u))) ∧
     (∀ closer : Option Closer,
       (s.ckpt.state = .idle →
         Completes (.checkpointRequest closer) s (fun u =>
           u.ckpt = { s.ckpt with
                        state := .fencing, pendingMark := false, nextClosers := [],
                        current := some { generation := s.ckpt.generation, image := none, members := [],
                                          closers := s.ckpt.nextClosers ++ closer.toList } } ∧
             Sends [.hold] s u ∧ ChangesOnly [.ckpt, .mail] s u)) ∧
       (s.ckpt.state = .fencing ∨ s.ckpt.state = .writing →
         Completes (.checkpointRequest closer) s (fun u =>
           u.ckpt = { s.ckpt with pendingMark := true, nextClosers := s.ckpt.nextClosers ++ closer.toList } ∧
             ChangesOnly [.ckpt] s u)) ∧
       (s.ckpt.state = .halted → exec (.checkpointRequest closer) s = .next s)) ∧
     (ExpiryDue checkpointTimer .first s → s.ckpt.state = .idle →
       Completes .checkpointExpiry s (fun u =>
         u.ckpt.state = .fencing ∧ u.ckpt.pendingMark = false ∧ Sends [.hold] s u ∧
           OtherTimersSame [checkpointTimer] s u ∧ ChangesOnly [.ckpt, .mail, .timers] s u)) ∧
     (s.ckpt.state = .idle → s.ckpt.changed = false → s.verify.cursor = s.ckpt.capturedCursor →
       Completes .parkSave s (fun u => Sends [.saved] s u ∧ ChangesOnly [.mail] s u)) ∧
     (s.ckpt.state = .idle → s.ckpt.changed = true ∨ s.verify.cursor ≠ s.ckpt.capturedCursor →
       Completes .parkSave s (fun u =>
         u.ckpt.state = .fencing ∧ u.ckpt.current.any (fun c => .power ∈ c.closers) = true ∧ Sends [.hold] s u ∧
           ChangesOnly [.ckpt, .mail] s u)) ∧
     Completes .parkSaveWithdraw s (fun u =>
       .power ∉ u.ckpt.nextClosers ∧ u.ckpt.current.any (fun c => .power ∈ c.closers) = false ∧
         (∀ c : Closer, c ≠ .power → c ∈ s.ckpt.nextClosers → c ∈ u.ckpt.nextClosers) ∧
         u.ckpt.state = s.ckpt.state ∧ ChangesOnly [.ckpt] s u)) ∧
  (∀ (d : DiskPort) (c : Checkpoint) (m : CkptMember) (image : Image) (n : Nat) (data : ReadData) (s : State),
     s.stalled = none → s.ckpt.current = some c → c.image = some image → (c.members[d.val]?).join = some m →
     ckptDone (some m) = false →
     (m.ended + n < imagePages s.index.capacity → m.offered < imagePages s.index.capacity → m.queued = 8 →
       OutcomeGives d (.ckptPages c.generation n) .done data s (fun u =>
         let k := min 256 (imagePages s.index.capacity - m.offered)
         ckptMember d u = some { m with ended := m.ended + n, offered := m.offered + k } ∧
           Sends [.commandOffer d
             { requester := .ckptPages c.generation k, cls := .metadata,
               op := .write (rootBlock m.half + 1 + m.offered) k (.imagePages image m.offered k) }] s u ∧
           ChangesOnly [.ckpt, .mail] s u)) ∧
     (imagePages s.index.capacity ≤ m.ended + n →
       OutcomeGives d (.ckptPages c.generation n) .done data s (fun u =>
         ckptMember d u = some { m with ended := m.ended + n, queued := m.queued - 1, step := .firstFlush } ∧
           Sends [.commandOffer d { requester := .ckptFirstFlush c.generation, cls := .metadata, op := .flush }] s u ∧
           ChangesOnly [.ckpt, .mail] s u)) ∧
     OutcomeGives d (.ckptFirstFlush c.generation) .done data s (fun u =>
       ckptMember d u = some { m with step := .root } ∧
         Sends [.commandOffer d
           { requester := .ckptRoot c.generation, cls := .metadata,
             op := .write (rootBlock m.half) 1 (.root (rootFor c.generation image m.number)) }] s u ∧
         ChangesOnly [.ckpt, .mail] s u) ∧
     OutcomeGives d (.ckptRoot c.generation) .done data s (fun u =>
       ckptMember d u = some { m with step := .lastFlush } ∧
         Sends [.commandOffer d { requester := .ckptLastFlush c.generation, cls := .metadata, op := .flush }] s u ∧
         ChangesOnly [.ckpt, .mail] s u) ∧
     (∀ (g : Word) (res : DiskResult), g ≠ c.generation →
       OutcomeGives d (.ckptPages g n) res data s (fun u => u = s) ∧
         OutcomeGives d (.ckptFirstFlush g) res data s (fun u => u = s) ∧
         OutcomeGives d (.ckptRoot g) res data s (fun u => u = s) ∧
         OutcomeGives d (.ckptLastFlush g) res data s (fun u => u = s))) ∧
  (∀ (d : DiskPort) (c : Checkpoint) (m : CkptMember) (data : ReadData) (s : State), s.stalled = none →
     s.ckpt.current = some c → c.image.isSome = true → (c.members[d.val]?).join = some m → m.step = .lastFlush →
     (∀ j, j ≠ d.val → ckptDone ((c.members[j]?).join) = true) → c.closers = [] →
     (s.ckpt.pendingMark = false →
       OutcomeGives d (.ckptLastFlush c.generation) .done data s (fun u =>
         u.ckpt.state = .idle ∧ u.ckpt.current = none ∧ u.ckpt.generation = c.generation ∧
           u.ckpt.memberGen[d] = some (c.generation, m.half) ∧ u.ckpt.shadow = [] ∧ ChangesOnly [.ckpt] s u)) ∧
     (s.ckpt.pendingMark = true →
       OutcomeGives d (.ckptLastFlush c.generation) .done data s (fun u =>
         u.ckpt.state = .fencing ∧ u.ckpt.pendingMark = false ∧ u.ckpt.nextClosers = [] ∧
           u.ckpt.current =
             some { generation := c.generation, image := none, members := [], closers := s.ckpt.nextClosers } ∧
           Sends [.hold] s u ∧ ChangesOnly [.ckpt, .mail] s u)) ∧
     (∀ res : DiskResult, res ≠ .done →
       ((∀ j, j ≠ d.val → ((c.members[j]?).join).any (fun m => m.step = .succeeded) = false) →
         OutcomeGives d (.ckptLastFlush c.generation) res data s (fun u =>
           u.power.station = .halted ∧ u.report.halt = .checkpoint ∧ flagSet .haltReason u = true ∧
             u.ckpt.state = .halted ∧ u.ckpt.generation = s.ckpt.generation)) ∧
       (∀ j, j ≠ d.val → ((c.members[j]?).join).any (fun m => m.step = .succeeded) = true → s.ckpt.pendingMark = false →
         OutcomeGives d (.ckptLastFlush c.generation) res data s (fun u =>
           u.ckpt.state = .idle ∧ u.ckpt.generation = c.generation ∧ u.ckpt.memberGen[d] = s.ckpt.memberGen[d] ∧
             ChangesOnly [.ckpt, .ports, .mail] s u)))) ∧
  (∀ (d : DiskPort) (c : Checkpoint) (m : CkptMember) (j : Nat) (r : Requester) (res : DiskResult) (data : ReadData)
     (s : State), s.stalled = none → s.ckpt.current = some c → c.image.isSome = true →
     (c.members[d.val]?).join = some m → ckptDone (some m) = false → j ≠ d.val →
     ckptDone ((c.members[j]?).join) = false → res ≠ .done →
     (∃ n, r = .ckptPages c.generation n) ∨ r = .ckptFirstFlush c.generation ∨ r = .ckptRoot c.generation ∨
       r = .ckptLastFlush c.generation →
     OutcomeGives d r res data s (fun u =>
       ckptMember d u = some { m with step := .failed } ∧
         u.ports.port[d] =
           { s.ports.port[d] with
             backlog := (s.ports.port[d]).backlog.filter (fun k => checkpointOf k.requester ≠ some c.generation) } ∧
         (∀ e, e ≠ d → u.ports.port[e] = s.ports.port[e]) ∧ u.ports.waiting = s.ports.waiting ∧
         (∀ k, checkpointOf k.requester = some c.generation → Work.cmd (.commandOffer d k) ∉ u.mail) ∧
         (∀ w : Work, w ∈ s.mail →
           (∀ k, checkpointOf k.requester = some c.generation → w ≠ .cmd (.commandOffer d k)) → w ∈ u.mail) ∧
         ChangesOnly [.ckpt, .ports, .mail] s u))

/-- HOLD, FENCE, FENCE_BACK and RELEASE (R135): the index keeps its claims and fences both owners, the session manager
first (the model's choice, log 46); an owner answers FENCE_BACK, the catalog once no MARK of its own is unanswered; with
the second answer the image is captured, its generation one more, the claims kept are taken, their changes outside the
image, and both owners are released; RELEASE lets the work that waited go on before what has come since (kept in a list
of the model's, log 6). A claim kept that hits a pinned entry changes nothing of it and is no change of the image (R19,
R26). Loading the image a checkpoint captured gives back its entries at their positions in image form, with the scrub
cursor, where the index has the image's capacity (R18, R132, R142, R144). -/
def Obligations.FenceAndCapture : Prop :=
  (∀ (s : State), s.power.station ≠ .halted →
     Completes .hold s (fun u =>
       u.index = { s.index with holding := true } ∧ u.ckpt = { s.ckpt with backs := [] } ∧
         Sends [.fence .sessions, .fence .catalog] s u ∧ ChangesOnly [.index, .ckpt, .mail] s u) ∧
     Completes (.fence .sessions) s (fun u =>
       u.sessions = { s.sessions with fenced := true } ∧ Sends [.fenceBack .sessions] s u ∧
         ChangesOnly [.sessions, .mail] s u) ∧
     (s.catalog.marksOut = 0 →
       Completes (.fence .catalog) s (fun u =>
         u.catalog = { s.catalog with fenced := true } ∧ Sends [.fenceBack .catalog] s u ∧
           ChangesOnly [.catalog, .mail] s u)) ∧
     (0 < s.catalog.marksOut →
       Completes (.fence .catalog) s (fun u =>
         u.catalog = { s.catalog with fenceDue := true } ∧ ChangesOnly [.catalog] s u)) ∧
     (∀ o : FenceOwner, s.index.holding = true → s.ckpt.backs = [] →
       Completes (.fenceBack o) s (fun u =>
         u.ckpt = { s.ckpt with backs := [o] } ∧ ChangesOnly [.ckpt] s u)) ∧
     (∀ (c : Checkpoint) (d : DiskPort) (k : Nat) (m : BlockMap), s.index.holding = true →
       s.ckpt.backs = [.sessions] → s.index.kept = [] → s.ckpt.state = .fencing → s.ckpt.current = some c →
       s.alloc.members[d] = some { number := k, map := some m } → (s.ports.port[d]).spin ≠ .faulted →
       Completes (.fenceBack .catalog) s (fun u =>
         u.index = { s.index with holding := false, kept := [] } ∧ u.ckpt.state = .writing ∧ u.ckpt.backs = [] ∧
           u.ckpt.changed = false ∧ u.ckpt.capturedCursor = s.verify.cursor ∧
           (∃ ms, u.ckpt.current =
             some { c with generation := s.ckpt.generation + 1, image := some (imageForm s), members := ms }) ∧
           Posted (.fenceRelease .sessions) u ∧ Posted (.fenceRelease .catalog) u ∧
           (∃ cmd, cmd.requester = .ckptPages (s.ckpt.generation + 1) (min 256 (imagePages s.index.capacity)) ∧
             cmd.cls = .metadata ∧ Posted (.commandOffer d cmd) u) ∧
           TimerStopped checkpointTimer u ∧ ChangesOnly [.index, .ckpt, .mail, .timers] s u)) ∧
     (∀ (c : Checkpoint) (d : DiskPort) (k : Nat) (m : BlockMap) (w : Claim) (pos : Nat) (e : Entry),
       s.index.holding = true → s.ckpt.backs = [.sessions] → s.index.kept = [w] → s.ckpt.state = .fencing →
       s.ckpt.current = some c → s.ckpt.shadow = [] → s.ckpt.waiters = [] → s.stalled = none →
       s.alloc.members[d] = some { number := k, map := some m } → (s.ports.port[d]).spin ≠ .faulted →
       findEntry w.id s = some (pos, e) → e.state = .stored → w.buffer = none →
       Completes (.fenceBack .catalog) s (fun u =>
         u.index.holding = false ∧ u.index.kept = [] ∧
           findEntry w.id u = some (pos, { e with count := min 65535 (e.count + 1) }) ∧
           Posted (claimAnswer w .hit) u ∧
           (e.count ≠ 65535 →
             u.ckpt.changed = true ∧ u.ckpt.shadow = [pageOfPart s.index.capacity (.index pos)]) ∧
           (e.count = 65535 → u.ckpt.changed = false ∧ u.ckpt.shadow = []) ∧
           u.ckpt.current.any (fun c => c.image = some (imageForm s)) = true ∧
           ChangesOnly [.index, .ckpt, .mail, .timers] s u)) ∧
     (∀ o : FenceOwner,
       Completes (.fenceRelease o) s (fun u =>
         u.mail = s.fenceWaiting ++ s.mail ∧ u.fenceWaiting = [] ∧ ownerFenced o u = false ∧
           ChangesOnly [.sessions, .catalog, .mail, .fenceWaiting] s u))) ∧
  (∀ (t s : State), IndexInv t → s.index.entries = [] → s.index.capacity = t.index.capacity →
     (loadIndex t.index.capacity (imageForm t) s).index.entries =
         t.index.entries.map (fun e => (e.1, loadedEntry (imageEntry e.2))) ∧
       (loadIndex t.index.capacity (imageForm t) s).verify.cursor = t.verify.cursor)

/-! ### Configuration and report -/

/-- QUERY_STATION, CLEAR_FLAGS, SET_CONFIG and SET_CONFIG_WRITE_DONE (R199 to R202): the 104-byte report under the code
of the station state, with the values of the moment, in HALTED too (the model's choice, log 41); the masked flags are
cleared and the rest answered, HALT_REASON staying in HALTED; a block is formed and written in UNCONFIGURED alone; it is
answered OK when it reads back equal, else STORE_FAILED. -/
def Obligations.ReportBlockAnswers : Prop :=
  ∀ (h : ReqHdr) (s : State),
    (s.power.station ≠ .coldStart →
      Completes (.queryStation h) s (fun u =>
        Answers h (reportCode s.power.station) (reportBytes s) false s u ∧
          (reportBytes s).length = 104 ∧ ChangesOnly [.link, .mail] s u)) ∧
    (∀ mask : Byte,
      (s.power.station ≠ .halted →
        Completes (.clearFlags h mask) s (fun u =>
          u.report = { s.report with flags := s.report.flags &&& ~~~mask } ∧
            Answers h .ok [s.report.flags &&& ~~~mask] false s u ∧ ChangesOnly [.report, .link, .mail] s u)) ∧
      (s.power.station = .halted → flagSet .haltReason s = true →
        Completes (.clearFlags h mask) s (fun u =>
          flagSet .haltReason u = true ∧ (∀ f, f ≠ Flag.haltReason → mask &&& flagBit f ≠ 0 → flagSet f u = false) ∧
            Answers h .halted [u.report.flags] false s u ∧ ChangesOnly [.report, .link, .mail] s u))) ∧
    (∀ (block : List Byte) (mask : Word),
      (s.power.station ≠ .unconfigured →
        Completes (.setConfig h block mask) s (fun u =>
          Answers h .notPermitted [] false s u ∧ ChangesOnly [.link, .mail] s u)) ∧
      (s.power.station = .unconfigured → s.report.writing = none → fieldAt block 6 2 ≠ 0 →
        fieldAt block 6 2 ≠ 65535 → fieldAt block 2 4 ≠ 0 → block.length = 44 →
        Completes (.setConfig h block mask) s (fun u =>
          ∃ bs, u.report = { s.report with writing := some (h, bs) } ∧ bs.length = 48 ∧
            bs.drop 44 = beBytes 4 (crc32 (bs.take 44)).toNat ∧ (mask = 0 → bs.take 44 = block) ∧
            u.link.tx = s.link.tx ∧ ChangesOnly [.report, .link, .mail] s u))) ∧
    (∀ (bs : List Byte) (readBack : Option (List Byte)), s.report.writing = some (h, bs) →
      Completes (.setConfigWriteDone readBack) s (fun u =>
        u.report = { s.report with writing := none } ∧ u.flash = readBack ∧
          (readBack = some bs → Hands [{ replyFrameOf s h .ok [] false with restart := true }] s u) ∧
          (readBack ≠ some bs → Answers h .storeFailed [] false s u) ∧ ChangesOnly [.report, .flash, .link] s u))

/-! ### The index, the queues and the catalog under every step -/

/-- Every step keeps the index: one entry per print and length, positions rising within the table (R17, R22). Every
step keeps the queues within their bounds (R48, R189, R191, R192). Every step keeps what leads to what in the catalog:
a catch-up request has its conversation, and a fetch is in hand in AWAKE alone, in HALTED, or saved in COLD_START
(R99, R102, R165). -/
def Obligations.TablesInvKept : Prop :=
  (∀ (s u : State), IndexInv s → step s = .next u → IndexInv u) ∧
  (∀ (s u : State), QueueInv s → step s = .next u → QueueInv u) ∧
  (∀ (s u : State), StationInv s → LeadInv s → step s = .next u → LeadInv u)
end

