-- ==== Sys2Proof/Laws/State.lean ====
section
/-! SUPPORT. What the basic updates of the state leave alone: one lemma per field per update, true by rfl. -/

namespace Sys2Proof.Machine

@[simp] theorem post_pending (c : Instr) (s : State) : (post c s).pending = s.pending := rfl
@[simp] theorem post_stalled (c : Instr) (s : State) : (post c s).stalled = s.stalled := rfl
@[simp] theorem post_fenceWaiting (c : Instr) (s : State) : (post c s).fenceWaiting = s.fenceWaiting := rfl
@[simp] theorem post_freeIx (c : Instr) (s : State) : (post c s).freeIx = s.freeIx := rfl
@[simp] theorem post_flash (c : Instr) (s : State) : (post c s).flash = s.flash := rfl
@[simp] theorem post_dram (c : Instr) (s : State) : (post c s).dram = s.dram := rfl
@[simp] theorem post_cold (c : Instr) (s : State) : (post c s).cold = s.cold := rfl
@[simp] theorem post_link (c : Instr) (s : State) : (post c s).link = s.link := rfl
@[simp] theorem post_engine (c : Instr) (s : State) : (post c s).engine = s.engine := rfl
@[simp] theorem post_index (c : Instr) (s : State) : (post c s).index = s.index := rfl
@[simp] theorem post_alloc (c : Instr) (s : State) : (post c s).alloc = s.alloc := rfl
@[simp] theorem post_ports (c : Instr) (s : State) : (post c s).ports = s.ports := rfl
@[simp] theorem post_sessions (c : Instr) (s : State) : (post c s).sessions = s.sessions := rfl
@[simp] theorem post_catalog (c : Instr) (s : State) : (post c s).catalog = s.catalog := rfl
@[simp] theorem post_verify (c : Instr) (s : State) : (post c s).verify = s.verify := rfl
@[simp] theorem post_ckpt (c : Instr) (s : State) : (post c s).ckpt = s.ckpt := rfl
@[simp] theorem post_peers (c : Instr) (s : State) : (post c s).peers = s.peers := rfl
@[simp] theorem post_power (c : Instr) (s : State) : (post c s).power = s.power := rfl
@[simp] theorem post_timers (c : Instr) (s : State) : (post c s).timers = s.timers := rfl
@[simp] theorem post_report (c : Instr) (s : State) : (post c s).report = s.report := rfl

@[simp] theorem startTimer_pending (t : TimerNo) (n m : Int) (s : State) : (startTimer t n s m).pending = s.pending := rfl
@[simp] theorem startTimer_mail (t : TimerNo) (n m : Int) (s : State) : (startTimer t n s m).mail = s.mail := rfl
@[simp] theorem startTimer_stalled (t : TimerNo) (n m : Int) (s : State) : (startTimer t n s m).stalled = s.stalled := rfl
@[simp] theorem startTimer_fenceWaiting (t : TimerNo) (n m : Int) (s : State) : (startTimer t n s m).fenceWaiting = s.fenceWaiting := rfl
@[simp] theorem startTimer_freeIx (t : TimerNo) (n m : Int) (s : State) : (startTimer t n s m).freeIx = s.freeIx := rfl
@[simp] theorem startTimer_flash (t : TimerNo) (n m : Int) (s : State) : (startTimer t n s m).flash = s.flash := rfl
@[simp] theorem startTimer_dram (t : TimerNo) (n m : Int) (s : State) : (startTimer t n s m).dram = s.dram := rfl
@[simp] theorem startTimer_cold (t : TimerNo) (n m : Int) (s : State) : (startTimer t n s m).cold = s.cold := rfl
@[simp] theorem startTimer_link (t : TimerNo) (n m : Int) (s : State) : (startTimer t n s m).link = s.link := rfl
@[simp] theorem startTimer_engine (t : TimerNo) (n m : Int) (s : State) : (startTimer t n s m).engine = s.engine := rfl
@[simp] theorem startTimer_index (t : TimerNo) (n m : Int) (s : State) : (startTimer t n s m).index = s.index := rfl
@[simp] theorem startTimer_alloc (t : TimerNo) (n m : Int) (s : State) : (startTimer t n s m).alloc = s.alloc := rfl
@[simp] theorem startTimer_ports (t : TimerNo) (n m : Int) (s : State) : (startTimer t n s m).ports = s.ports := rfl
@[simp] theorem startTimer_sessions (t : TimerNo) (n m : Int) (s : State) : (startTimer t n s m).sessions = s.sessions := rfl
@[simp] theorem startTimer_catalog (t : TimerNo) (n m : Int) (s : State) : (startTimer t n s m).catalog = s.catalog := rfl
@[simp] theorem startTimer_verify (t : TimerNo) (n m : Int) (s : State) : (startTimer t n s m).verify = s.verify := rfl
@[simp] theorem startTimer_ckpt (t : TimerNo) (n m : Int) (s : State) : (startTimer t n s m).ckpt = s.ckpt := rfl
@[simp] theorem startTimer_peers (t : TimerNo) (n m : Int) (s : State) : (startTimer t n s m).peers = s.peers := rfl
@[simp] theorem startTimer_power (t : TimerNo) (n m : Int) (s : State) : (startTimer t n s m).power = s.power := rfl
@[simp] theorem startTimer_report (t : TimerNo) (n m : Int) (s : State) : (startTimer t n s m).report = s.report := rfl

@[simp] theorem stopTimer_pending (t : TimerNo) (s : State) : (stopTimer t s).pending = s.pending := rfl
@[simp] theorem stopTimer_mail (t : TimerNo) (s : State) : (stopTimer t s).mail = s.mail := rfl
@[simp] theorem stopTimer_stalled (t : TimerNo) (s : State) : (stopTimer t s).stalled = s.stalled := rfl
@[simp] theorem stopTimer_fenceWaiting (t : TimerNo) (s : State) : (stopTimer t s).fenceWaiting = s.fenceWaiting := rfl
@[simp] theorem stopTimer_freeIx (t : TimerNo) (s : State) : (stopTimer t s).freeIx = s.freeIx := rfl
@[simp] theorem stopTimer_flash (t : TimerNo) (s : State) : (stopTimer t s).flash = s.flash := rfl
@[simp] theorem stopTimer_dram (t : TimerNo) (s : State) : (stopTimer t s).dram = s.dram := rfl
@[simp] theorem stopTimer_cold (t : TimerNo) (s : State) : (stopTimer t s).cold = s.cold := rfl
@[simp] theorem stopTimer_link (t : TimerNo) (s : State) : (stopTimer t s).link = s.link := rfl
@[simp] theorem stopTimer_engine (t : TimerNo) (s : State) : (stopTimer t s).engine = s.engine := rfl
@[simp] theorem stopTimer_index (t : TimerNo) (s : State) : (stopTimer t s).index = s.index := rfl
@[simp] theorem stopTimer_alloc (t : TimerNo) (s : State) : (stopTimer t s).alloc = s.alloc := rfl
@[simp] theorem stopTimer_ports (t : TimerNo) (s : State) : (stopTimer t s).ports = s.ports := rfl
@[simp] theorem stopTimer_sessions (t : TimerNo) (s : State) : (stopTimer t s).sessions = s.sessions := rfl
@[simp] theorem stopTimer_catalog (t : TimerNo) (s : State) : (stopTimer t s).catalog = s.catalog := rfl
@[simp] theorem stopTimer_verify (t : TimerNo) (s : State) : (stopTimer t s).verify = s.verify := rfl
@[simp] theorem stopTimer_ckpt (t : TimerNo) (s : State) : (stopTimer t s).ckpt = s.ckpt := rfl
@[simp] theorem stopTimer_peers (t : TimerNo) (s : State) : (stopTimer t s).peers = s.peers := rfl
@[simp] theorem stopTimer_power (t : TimerNo) (s : State) : (stopTimer t s).power = s.power := rfl
@[simp] theorem stopTimer_report (t : TimerNo) (s : State) : (stopTimer t s).report = s.report := rfl

@[simp] theorem extendTimer_pending (t : TimerNo) (n : Int) (s : State) : (extendTimer t n s).pending = s.pending := rfl
@[simp] theorem extendTimer_mail (t : TimerNo) (n : Int) (s : State) : (extendTimer t n s).mail = s.mail := rfl
@[simp] theorem extendTimer_stalled (t : TimerNo) (n : Int) (s : State) : (extendTimer t n s).stalled = s.stalled := rfl
@[simp] theorem extendTimer_fenceWaiting (t : TimerNo) (n : Int) (s : State) : (extendTimer t n s).fenceWaiting = s.fenceWaiting := rfl
@[simp] theorem extendTimer_freeIx (t : TimerNo) (n : Int) (s : State) : (extendTimer t n s).freeIx = s.freeIx := rfl
@[simp] theorem extendTimer_flash (t : TimerNo) (n : Int) (s : State) : (extendTimer t n s).flash = s.flash := rfl
@[simp] theorem extendTimer_dram (t : TimerNo) (n : Int) (s : State) : (extendTimer t n s).dram = s.dram := rfl
@[simp] theorem extendTimer_cold (t : TimerNo) (n : Int) (s : State) : (extendTimer t n s).cold = s.cold := rfl
@[simp] theorem extendTimer_link (t : TimerNo) (n : Int) (s : State) : (extendTimer t n s).link = s.link := rfl
@[simp] theorem extendTimer_engine (t : TimerNo) (n : Int) (s : State) : (extendTimer t n s).engine = s.engine := rfl
@[simp] theorem extendTimer_index (t : TimerNo) (n : Int) (s : State) : (extendTimer t n s).index = s.index := rfl
@[simp] theorem extendTimer_alloc (t : TimerNo) (n : Int) (s : State) : (extendTimer t n s).alloc = s.alloc := rfl
@[simp] theorem extendTimer_ports (t : TimerNo) (n : Int) (s : State) : (extendTimer t n s).ports = s.ports := rfl
@[simp] theorem extendTimer_sessions (t : TimerNo) (n : Int) (s : State) : (extendTimer t n s).sessions = s.sessions := rfl
@[simp] theorem extendTimer_catalog (t : TimerNo) (n : Int) (s : State) : (extendTimer t n s).catalog = s.catalog := rfl
@[simp] theorem extendTimer_verify (t : TimerNo) (n : Int) (s : State) : (extendTimer t n s).verify = s.verify := rfl
@[simp] theorem extendTimer_ckpt (t : TimerNo) (n : Int) (s : State) : (extendTimer t n s).ckpt = s.ckpt := rfl
@[simp] theorem extendTimer_peers (t : TimerNo) (n : Int) (s : State) : (extendTimer t n s).peers = s.peers := rfl
@[simp] theorem extendTimer_power (t : TimerNo) (n : Int) (s : State) : (extendTimer t n s).power = s.power := rfl
@[simp] theorem extendTimer_report (t : TimerNo) (n : Int) (s : State) : (extendTimer t n s).report = s.report := rfl

@[simp] theorem lendBuffer_pending (b : BufferNo) (w : Borrower) (s : State) : (lendBuffer b w s).pending = s.pending := rfl
@[simp] theorem lendBuffer_mail (b : BufferNo) (w : Borrower) (s : State) : (lendBuffer b w s).mail = s.mail := rfl
@[simp] theorem lendBuffer_stalled (b : BufferNo) (w : Borrower) (s : State) : (lendBuffer b w s).stalled = s.stalled := rfl
@[simp] theorem lendBuffer_fenceWaiting (b : BufferNo) (w : Borrower) (s : State) : (lendBuffer b w s).fenceWaiting = s.fenceWaiting := rfl
@[simp] theorem lendBuffer_freeIx (b : BufferNo) (w : Borrower) (s : State) : (lendBuffer b w s).freeIx = s.freeIx := rfl
@[simp] theorem lendBuffer_flash (b : BufferNo) (w : Borrower) (s : State) : (lendBuffer b w s).flash = s.flash := rfl
@[simp] theorem lendBuffer_dram (b : BufferNo) (w : Borrower) (s : State) : (lendBuffer b w s).dram = s.dram := rfl
@[simp] theorem lendBuffer_cold (b : BufferNo) (w : Borrower) (s : State) : (lendBuffer b w s).cold = s.cold := rfl
@[simp] theorem lendBuffer_link (b : BufferNo) (w : Borrower) (s : State) : (lendBuffer b w s).link = s.link := rfl
@[simp] theorem lendBuffer_index (b : BufferNo) (w : Borrower) (s : State) : (lendBuffer b w s).index = s.index := rfl
@[simp] theorem lendBuffer_alloc (b : BufferNo) (w : Borrower) (s : State) : (lendBuffer b w s).alloc = s.alloc := rfl
@[simp] theorem lendBuffer_ports (b : BufferNo) (w : Borrower) (s : State) : (lendBuffer b w s).ports = s.ports := rfl
@[simp] theorem lendBuffer_sessions (b : BufferNo) (w : Borrower) (s : State) : (lendBuffer b w s).sessions = s.sessions := rfl
@[simp] theorem lendBuffer_catalog (b : BufferNo) (w : Borrower) (s : State) : (lendBuffer b w s).catalog = s.catalog := rfl
@[simp] theorem lendBuffer_verify (b : BufferNo) (w : Borrower) (s : State) : (lendBuffer b w s).verify = s.verify := rfl
@[simp] theorem lendBuffer_ckpt (b : BufferNo) (w : Borrower) (s : State) : (lendBuffer b w s).ckpt = s.ckpt := rfl
@[simp] theorem lendBuffer_peers (b : BufferNo) (w : Borrower) (s : State) : (lendBuffer b w s).peers = s.peers := rfl
@[simp] theorem lendBuffer_power (b : BufferNo) (w : Borrower) (s : State) : (lendBuffer b w s).power = s.power := rfl
@[simp] theorem lendBuffer_timers (b : BufferNo) (w : Borrower) (s : State) : (lendBuffer b w s).timers = s.timers := rfl
@[simp] theorem lendBuffer_report (b : BufferNo) (w : Borrower) (s : State) : (lendBuffer b w s).report = s.report := rfl

@[simp] theorem passBuffer_pending (b : BufferNo) (w : Borrower) (s : State) : (passBuffer b w s).pending = s.pending := rfl
@[simp] theorem passBuffer_mail (b : BufferNo) (w : Borrower) (s : State) : (passBuffer b w s).mail = s.mail := rfl
@[simp] theorem passBuffer_stalled (b : BufferNo) (w : Borrower) (s : State) : (passBuffer b w s).stalled = s.stalled := rfl
@[simp] theorem passBuffer_fenceWaiting (b : BufferNo) (w : Borrower) (s : State) : (passBuffer b w s).fenceWaiting = s.fenceWaiting := rfl
@[simp] theorem passBuffer_freeIx (b : BufferNo) (w : Borrower) (s : State) : (passBuffer b w s).freeIx = s.freeIx := rfl
@[simp] theorem passBuffer_flash (b : BufferNo) (w : Borrower) (s : State) : (passBuffer b w s).flash = s.flash := rfl
@[simp] theorem passBuffer_dram (b : BufferNo) (w : Borrower) (s : State) : (passBuffer b w s).dram = s.dram := rfl
@[simp] theorem passBuffer_cold (b : BufferNo) (w : Borrower) (s : State) : (passBuffer b w s).cold = s.cold := rfl
@[simp] theorem passBuffer_link (b : BufferNo) (w : Borrower) (s : State) : (passBuffer b w s).link = s.link := rfl
@[simp] theorem passBuffer_index (b : BufferNo) (w : Borrower) (s : State) : (passBuffer b w s).index = s.index := rfl
@[simp] theorem passBuffer_alloc (b : BufferNo) (w : Borrower) (s : State) : (passBuffer b w s).alloc = s.alloc := rfl
@[simp] theorem passBuffer_ports (b : BufferNo) (w : Borrower) (s : State) : (passBuffer b w s).ports = s.ports := rfl
@[simp] theorem passBuffer_sessions (b : BufferNo) (w : Borrower) (s : State) : (passBuffer b w s).sessions = s.sessions := rfl
@[simp] theorem passBuffer_catalog (b : BufferNo) (w : Borrower) (s : State) : (passBuffer b w s).catalog = s.catalog := rfl
@[simp] theorem passBuffer_verify (b : BufferNo) (w : Borrower) (s : State) : (passBuffer b w s).verify = s.verify := rfl
@[simp] theorem passBuffer_ckpt (b : BufferNo) (w : Borrower) (s : State) : (passBuffer b w s).ckpt = s.ckpt := rfl
@[simp] theorem passBuffer_peers (b : BufferNo) (w : Borrower) (s : State) : (passBuffer b w s).peers = s.peers := rfl
@[simp] theorem passBuffer_power (b : BufferNo) (w : Borrower) (s : State) : (passBuffer b w s).power = s.power := rfl
@[simp] theorem passBuffer_timers (b : BufferNo) (w : Borrower) (s : State) : (passBuffer b w s).timers = s.timers := rfl
@[simp] theorem passBuffer_report (b : BufferNo) (w : Borrower) (s : State) : (passBuffer b w s).report = s.report := rfl

@[simp] theorem fillBuffer_pending (b : BufferNo) (bs : List Byte) (s : State) : (fillBuffer b bs s).pending = s.pending := rfl
@[simp] theorem fillBuffer_mail (b : BufferNo) (bs : List Byte) (s : State) : (fillBuffer b bs s).mail = s.mail := rfl
@[simp] theorem fillBuffer_stalled (b : BufferNo) (bs : List Byte) (s : State) : (fillBuffer b bs s).stalled = s.stalled := rfl
@[simp] theorem fillBuffer_fenceWaiting (b : BufferNo) (bs : List Byte) (s : State) : (fillBuffer b bs s).fenceWaiting = s.fenceWaiting := rfl
@[simp] theorem fillBuffer_freeIx (b : BufferNo) (bs : List Byte) (s : State) : (fillBuffer b bs s).freeIx = s.freeIx := rfl
@[simp] theorem fillBuffer_flash (b : BufferNo) (bs : List Byte) (s : State) : (fillBuffer b bs s).flash = s.flash := rfl
@[simp] theorem fillBuffer_dram (b : BufferNo) (bs : List Byte) (s : State) : (fillBuffer b bs s).dram = s.dram := rfl
@[simp] theorem fillBuffer_cold (b : BufferNo) (bs : List Byte) (s : State) : (fillBuffer b bs s).cold = s.cold := rfl
@[simp] theorem fillBuffer_link (b : BufferNo) (bs : List Byte) (s : State) : (fillBuffer b bs s).link = s.link := rfl
@[simp] theorem fillBuffer_index (b : BufferNo) (bs : List Byte) (s : State) : (fillBuffer b bs s).index = s.index := rfl
@[simp] theorem fillBuffer_alloc (b : BufferNo) (bs : List Byte) (s : State) : (fillBuffer b bs s).alloc = s.alloc := rfl
@[simp] theorem fillBuffer_ports (b : BufferNo) (bs : List Byte) (s : State) : (fillBuffer b bs s).ports = s.ports := rfl
@[simp] theorem fillBuffer_sessions (b : BufferNo) (bs : List Byte) (s : State) : (fillBuffer b bs s).sessions = s.sessions := rfl
@[simp] theorem fillBuffer_catalog (b : BufferNo) (bs : List Byte) (s : State) : (fillBuffer b bs s).catalog = s.catalog := rfl
@[simp] theorem fillBuffer_verify (b : BufferNo) (bs : List Byte) (s : State) : (fillBuffer b bs s).verify = s.verify := rfl
@[simp] theorem fillBuffer_ckpt (b : BufferNo) (bs : List Byte) (s : State) : (fillBuffer b bs s).ckpt = s.ckpt := rfl
@[simp] theorem fillBuffer_peers (b : BufferNo) (bs : List Byte) (s : State) : (fillBuffer b bs s).peers = s.peers := rfl
@[simp] theorem fillBuffer_power (b : BufferNo) (bs : List Byte) (s : State) : (fillBuffer b bs s).power = s.power := rfl
@[simp] theorem fillBuffer_timers (b : BufferNo) (bs : List Byte) (s : State) : (fillBuffer b bs s).timers = s.timers := rfl
@[simp] theorem fillBuffer_report (b : BufferNo) (bs : List Byte) (s : State) : (fillBuffer b bs s).report = s.report := rfl

@[simp] theorem leaveOrder_pending (w : Borrower) (s : State) : (leaveOrder w s).pending = s.pending := rfl
@[simp] theorem leaveOrder_mail (w : Borrower) (s : State) : (leaveOrder w s).mail = s.mail := rfl
@[simp] theorem leaveOrder_stalled (w : Borrower) (s : State) : (leaveOrder w s).stalled = s.stalled := rfl
@[simp] theorem leaveOrder_fenceWaiting (w : Borrower) (s : State) : (leaveOrder w s).fenceWaiting = s.fenceWaiting := rfl
@[simp] theorem leaveOrder_freeIx (w : Borrower) (s : State) : (leaveOrder w s).freeIx = s.freeIx := rfl
@[simp] theorem leaveOrder_flash (w : Borrower) (s : State) : (leaveOrder w s).flash = s.flash := rfl
@[simp] theorem leaveOrder_dram (w : Borrower) (s : State) : (leaveOrder w s).dram = s.dram := rfl
@[simp] theorem leaveOrder_cold (w : Borrower) (s : State) : (leaveOrder w s).cold = s.cold := rfl
@[simp] theorem leaveOrder_link (w : Borrower) (s : State) : (leaveOrder w s).link = s.link := rfl
@[simp] theorem leaveOrder_index (w : Borrower) (s : State) : (leaveOrder w s).index = s.index := rfl
@[simp] theorem leaveOrder_alloc (w : Borrower) (s : State) : (leaveOrder w s).alloc = s.alloc := rfl
@[simp] theorem leaveOrder_ports (w : Borrower) (s : State) : (leaveOrder w s).ports = s.ports := rfl
@[simp] theorem leaveOrder_sessions (w : Borrower) (s : State) : (leaveOrder w s).sessions = s.sessions := rfl
@[simp] theorem leaveOrder_catalog (w : Borrower) (s : State) : (leaveOrder w s).catalog = s.catalog := rfl
@[simp] theorem leaveOrder_verify (w : Borrower) (s : State) : (leaveOrder w s).verify = s.verify := rfl
@[simp] theorem leaveOrder_ckpt (w : Borrower) (s : State) : (leaveOrder w s).ckpt = s.ckpt := rfl
@[simp] theorem leaveOrder_peers (w : Borrower) (s : State) : (leaveOrder w s).peers = s.peers := rfl
@[simp] theorem leaveOrder_power (w : Borrower) (s : State) : (leaveOrder w s).power = s.power := rfl
@[simp] theorem leaveOrder_timers (w : Borrower) (s : State) : (leaveOrder w s).timers = s.timers := rfl
@[simp] theorem leaveOrder_report (w : Borrower) (s : State) : (leaveOrder w s).report = s.report := rfl

@[simp] theorem setFlag_pending (f : Flag) (s : State) : (setFlag f s).pending = s.pending := rfl
@[simp] theorem setFlag_mail (f : Flag) (s : State) : (setFlag f s).mail = s.mail := rfl
@[simp] theorem setFlag_stalled (f : Flag) (s : State) : (setFlag f s).stalled = s.stalled := rfl
@[simp] theorem setFlag_fenceWaiting (f : Flag) (s : State) : (setFlag f s).fenceWaiting = s.fenceWaiting := rfl
@[simp] theorem setFlag_freeIx (f : Flag) (s : State) : (setFlag f s).freeIx = s.freeIx := rfl
@[simp] theorem setFlag_flash (f : Flag) (s : State) : (setFlag f s).flash = s.flash := rfl
@[simp] theorem setFlag_dram (f : Flag) (s : State) : (setFlag f s).dram = s.dram := rfl
@[simp] theorem setFlag_cold (f : Flag) (s : State) : (setFlag f s).cold = s.cold := rfl
@[simp] theorem setFlag_link (f : Flag) (s : State) : (setFlag f s).link = s.link := rfl
@[simp] theorem setFlag_engine (f : Flag) (s : State) : (setFlag f s).engine = s.engine := rfl
@[simp] theorem setFlag_index (f : Flag) (s : State) : (setFlag f s).index = s.index := rfl
@[simp] theorem setFlag_alloc (f : Flag) (s : State) : (setFlag f s).alloc = s.alloc := rfl
@[simp] theorem setFlag_ports (f : Flag) (s : State) : (setFlag f s).ports = s.ports := rfl
@[simp] theorem setFlag_sessions (f : Flag) (s : State) : (setFlag f s).sessions = s.sessions := rfl
@[simp] theorem setFlag_catalog (f : Flag) (s : State) : (setFlag f s).catalog = s.catalog := rfl
@[simp] theorem setFlag_verify (f : Flag) (s : State) : (setFlag f s).verify = s.verify := rfl
@[simp] theorem setFlag_ckpt (f : Flag) (s : State) : (setFlag f s).ckpt = s.ckpt := rfl
@[simp] theorem setFlag_peers (f : Flag) (s : State) : (setFlag f s).peers = s.peers := rfl
@[simp] theorem setFlag_power (f : Flag) (s : State) : (setFlag f s).power = s.power := rfl
@[simp] theorem setFlag_timers (f : Flag) (s : State) : (setFlag f s).timers = s.timers := rfl

@[simp] theorem transmit_pending (fs : List TxFrame) (s : State) : (transmit fs s).pending = s.pending := rfl
@[simp] theorem transmit_mail (fs : List TxFrame) (s : State) : (transmit fs s).mail = s.mail := rfl
@[simp] theorem transmit_stalled (fs : List TxFrame) (s : State) : (transmit fs s).stalled = s.stalled := rfl
@[simp] theorem transmit_fenceWaiting (fs : List TxFrame) (s : State) : (transmit fs s).fenceWaiting = s.fenceWaiting := rfl
@[simp] theorem transmit_freeIx (fs : List TxFrame) (s : State) : (transmit fs s).freeIx = s.freeIx := rfl
@[simp] theorem transmit_flash (fs : List TxFrame) (s : State) : (transmit fs s).flash = s.flash := rfl
@[simp] theorem transmit_dram (fs : List TxFrame) (s : State) : (transmit fs s).dram = s.dram := rfl
@[simp] theorem transmit_cold (fs : List TxFrame) (s : State) : (transmit fs s).cold = s.cold := rfl
@[simp] theorem transmit_engine (fs : List TxFrame) (s : State) : (transmit fs s).engine = s.engine := rfl
@[simp] theorem transmit_index (fs : List TxFrame) (s : State) : (transmit fs s).index = s.index := rfl
@[simp] theorem transmit_alloc (fs : List TxFrame) (s : State) : (transmit fs s).alloc = s.alloc := rfl
@[simp] theorem transmit_ports (fs : List TxFrame) (s : State) : (transmit fs s).ports = s.ports := rfl
@[simp] theorem transmit_sessions (fs : List TxFrame) (s : State) : (transmit fs s).sessions = s.sessions := rfl
@[simp] theorem transmit_catalog (fs : List TxFrame) (s : State) : (transmit fs s).catalog = s.catalog := rfl
@[simp] theorem transmit_verify (fs : List TxFrame) (s : State) : (transmit fs s).verify = s.verify := rfl
@[simp] theorem transmit_ckpt (fs : List TxFrame) (s : State) : (transmit fs s).ckpt = s.ckpt := rfl
@[simp] theorem transmit_peers (fs : List TxFrame) (s : State) : (transmit fs s).peers = s.peers := rfl
@[simp] theorem transmit_power (fs : List TxFrame) (s : State) : (transmit fs s).power = s.power := rfl
@[simp] theorem transmit_timers (fs : List TxFrame) (s : State) : (transmit fs s).timers = s.timers := rfl
@[simp] theorem transmit_report (fs : List TxFrame) (s : State) : (transmit fs s).report = s.report := rfl

@[simp] theorem setPort_pending (d : DiskPort) (f : PortRec → PortRec) (s : State) : (setPort d f s).pending = s.pending := rfl
@[simp] theorem setPort_mail (d : DiskPort) (f : PortRec → PortRec) (s : State) : (setPort d f s).mail = s.mail := rfl
@[simp] theorem setPort_stalled (d : DiskPort) (f : PortRec → PortRec) (s : State) : (setPort d f s).stalled = s.stalled := rfl
@[simp] theorem setPort_fenceWaiting (d : DiskPort) (f : PortRec → PortRec) (s : State) : (setPort d f s).fenceWaiting = s.fenceWaiting := rfl
@[simp] theorem setPort_freeIx (d : DiskPort) (f : PortRec → PortRec) (s : State) : (setPort d f s).freeIx = s.freeIx := rfl
@[simp] theorem setPort_flash (d : DiskPort) (f : PortRec → PortRec) (s : State) : (setPort d f s).flash = s.flash := rfl
@[simp] theorem setPort_dram (d : DiskPort) (f : PortRec → PortRec) (s : State) : (setPort d f s).dram = s.dram := rfl
@[simp] theorem setPort_cold (d : DiskPort) (f : PortRec → PortRec) (s : State) : (setPort d f s).cold = s.cold := rfl
@[simp] theorem setPort_link (d : DiskPort) (f : PortRec → PortRec) (s : State) : (setPort d f s).link = s.link := rfl
@[simp] theorem setPort_engine (d : DiskPort) (f : PortRec → PortRec) (s : State) : (setPort d f s).engine = s.engine := rfl
@[simp] theorem setPort_index (d : DiskPort) (f : PortRec → PortRec) (s : State) : (setPort d f s).index = s.index := rfl
@[simp] theorem setPort_alloc (d : DiskPort) (f : PortRec → PortRec) (s : State) : (setPort d f s).alloc = s.alloc := rfl
@[simp] theorem setPort_sessions (d : DiskPort) (f : PortRec → PortRec) (s : State) : (setPort d f s).sessions = s.sessions := rfl
@[simp] theorem setPort_catalog (d : DiskPort) (f : PortRec → PortRec) (s : State) : (setPort d f s).catalog = s.catalog := rfl
@[simp] theorem setPort_verify (d : DiskPort) (f : PortRec → PortRec) (s : State) : (setPort d f s).verify = s.verify := rfl
@[simp] theorem setPort_ckpt (d : DiskPort) (f : PortRec → PortRec) (s : State) : (setPort d f s).ckpt = s.ckpt := rfl
@[simp] theorem setPort_peers (d : DiskPort) (f : PortRec → PortRec) (s : State) : (setPort d f s).peers = s.peers := rfl
@[simp] theorem setPort_power (d : DiskPort) (f : PortRec → PortRec) (s : State) : (setPort d f s).power = s.power := rfl
@[simp] theorem setPort_timers (d : DiskPort) (f : PortRec → PortRec) (s : State) : (setPort d f s).timers = s.timers := rfl
@[simp] theorem setPort_report (d : DiskPort) (f : PortRec → PortRec) (s : State) : (setPort d f s).report = s.report := rfl

@[simp] theorem setPeer_pending (i : Fin 32) (f : Peer → Peer) (s : State) : (setPeer i f s).pending = s.pending := rfl
@[simp] theorem setPeer_mail (i : Fin 32) (f : Peer → Peer) (s : State) : (setPeer i f s).mail = s.mail := rfl
@[simp] theorem setPeer_stalled (i : Fin 32) (f : Peer → Peer) (s : State) : (setPeer i f s).stalled = s.stalled := rfl
@[simp] theorem setPeer_fenceWaiting (i : Fin 32) (f : Peer → Peer) (s : State) : (setPeer i f s).fenceWaiting = s.fenceWaiting := rfl
@[simp] theorem setPeer_freeIx (i : Fin 32) (f : Peer → Peer) (s : State) : (setPeer i f s).freeIx = s.freeIx := rfl
@[simp] theorem setPeer_flash (i : Fin 32) (f : Peer → Peer) (s : State) : (setPeer i f s).flash = s.flash := rfl
@[simp] theorem setPeer_dram (i : Fin 32) (f : Peer → Peer) (s : State) : (setPeer i f s).dram = s.dram := rfl
@[simp] theorem setPeer_cold (i : Fin 32) (f : Peer → Peer) (s : State) : (setPeer i f s).cold = s.cold := rfl
@[simp] theorem setPeer_link (i : Fin 32) (f : Peer → Peer) (s : State) : (setPeer i f s).link = s.link := rfl
@[simp] theorem setPeer_engine (i : Fin 32) (f : Peer → Peer) (s : State) : (setPeer i f s).engine = s.engine := rfl
@[simp] theorem setPeer_index (i : Fin 32) (f : Peer → Peer) (s : State) : (setPeer i f s).index = s.index := rfl
@[simp] theorem setPeer_alloc (i : Fin 32) (f : Peer → Peer) (s : State) : (setPeer i f s).alloc = s.alloc := rfl
@[simp] theorem setPeer_ports (i : Fin 32) (f : Peer → Peer) (s : State) : (setPeer i f s).ports = s.ports := rfl
@[simp] theorem setPeer_sessions (i : Fin 32) (f : Peer → Peer) (s : State) : (setPeer i f s).sessions = s.sessions := rfl
@[simp] theorem setPeer_catalog (i : Fin 32) (f : Peer → Peer) (s : State) : (setPeer i f s).catalog = s.catalog := rfl
@[simp] theorem setPeer_verify (i : Fin 32) (f : Peer → Peer) (s : State) : (setPeer i f s).verify = s.verify := rfl
@[simp] theorem setPeer_ckpt (i : Fin 32) (f : Peer → Peer) (s : State) : (setPeer i f s).ckpt = s.ckpt := rfl
@[simp] theorem setPeer_power (i : Fin 32) (f : Peer → Peer) (s : State) : (setPeer i f s).power = s.power := rfl
@[simp] theorem setPeer_timers (i : Fin 32) (f : Peer → Peer) (s : State) : (setPeer i f s).timers = s.timers := rfl
@[simp] theorem setPeer_report (i : Fin 32) (f : Peer → Peer) (s : State) : (setPeer i f s).report = s.report := rfl

@[simp] theorem setCtx_pending (i : SessionNo) (f : Context → Context) (s : State) : (setCtx i f s).pending = s.pending := rfl
@[simp] theorem setCtx_mail (i : SessionNo) (f : Context → Context) (s : State) : (setCtx i f s).mail = s.mail := rfl
@[simp] theorem setCtx_stalled (i : SessionNo) (f : Context → Context) (s : State) : (setCtx i f s).stalled = s.stalled := rfl
@[simp] theorem setCtx_fenceWaiting (i : SessionNo) (f : Context → Context) (s : State) : (setCtx i f s).fenceWaiting = s.fenceWaiting := rfl
@[simp] theorem setCtx_freeIx (i : SessionNo) (f : Context → Context) (s : State) : (setCtx i f s).freeIx = s.freeIx := rfl
@[simp] theorem setCtx_flash (i : SessionNo) (f : Context → Context) (s : State) : (setCtx i f s).flash = s.flash := rfl
@[simp] theorem setCtx_dram (i : SessionNo) (f : Context → Context) (s : State) : (setCtx i f s).dram = s.dram := rfl
@[simp] theorem setCtx_cold (i : SessionNo) (f : Context → Context) (s : State) : (setCtx i f s).cold = s.cold := rfl
@[simp] theorem setCtx_link (i : SessionNo) (f : Context → Context) (s : State) : (setCtx i f s).link = s.link := rfl
@[simp] theorem setCtx_index (i : SessionNo) (f : Context → Context) (s : State) : (setCtx i f s).index = s.index := rfl
@[simp] theorem setCtx_alloc (i : SessionNo) (f : Context → Context) (s : State) : (setCtx i f s).alloc = s.alloc := rfl
@[simp] theorem setCtx_ports (i : SessionNo) (f : Context → Context) (s : State) : (setCtx i f s).ports = s.ports := rfl
@[simp] theorem setCtx_sessions (i : SessionNo) (f : Context → Context) (s : State) : (setCtx i f s).sessions = s.sessions := rfl
@[simp] theorem setCtx_catalog (i : SessionNo) (f : Context → Context) (s : State) : (setCtx i f s).catalog = s.catalog := rfl
@[simp] theorem setCtx_verify (i : SessionNo) (f : Context → Context) (s : State) : (setCtx i f s).verify = s.verify := rfl
@[simp] theorem setCtx_ckpt (i : SessionNo) (f : Context → Context) (s : State) : (setCtx i f s).ckpt = s.ckpt := rfl
@[simp] theorem setCtx_peers (i : SessionNo) (f : Context → Context) (s : State) : (setCtx i f s).peers = s.peers := rfl
@[simp] theorem setCtx_power (i : SessionNo) (f : Context → Context) (s : State) : (setCtx i f s).power = s.power := rfl
@[simp] theorem setCtx_timers (i : SessionNo) (f : Context → Context) (s : State) : (setCtx i f s).timers = s.timers := rfl
@[simp] theorem setCtx_report (i : SessionNo) (f : Context → Context) (s : State) : (setCtx i f s).report = s.report := rfl

@[simp] theorem setRecord_pending (id : ChunkId) (f : RepairRecord → RepairRecord) (s : State) : (setRecord id f s).pending = s.pending := rfl
@[simp] theorem setRecord_mail (id : ChunkId) (f : RepairRecord → RepairRecord) (s : State) : (setRecord id f s).mail = s.mail := rfl
@[simp] theorem setRecord_stalled (id : ChunkId) (f : RepairRecord → RepairRecord) (s : State) : (setRecord id f s).stalled = s.stalled := rfl
@[simp] theorem setRecord_fenceWaiting (id : ChunkId) (f : RepairRecord → RepairRecord) (s : State) : (setRecord id f s).fenceWaiting = s.fenceWaiting := rfl
@[simp] theorem setRecord_freeIx (id : ChunkId) (f : RepairRecord → RepairRecord) (s : State) : (setRecord id f s).freeIx = s.freeIx := rfl
@[simp] theorem setRecord_flash (id : ChunkId) (f : RepairRecord → RepairRecord) (s : State) : (setRecord id f s).flash = s.flash := rfl
@[simp] theorem setRecord_dram (id : ChunkId) (f : RepairRecord → RepairRecord) (s : State) : (setRecord id f s).dram = s.dram := rfl
@[simp] theorem setRecord_cold (id : ChunkId) (f : RepairRecord → RepairRecord) (s : State) : (setRecord id f s).cold = s.cold := rfl
@[simp] theorem setRecord_link (id : ChunkId) (f : RepairRecord → RepairRecord) (s : State) : (setRecord id f s).link = s.link := rfl
@[simp] theorem setRecord_engine (id : ChunkId) (f : RepairRecord → RepairRecord) (s : State) : (setRecord id f s).engine = s.engine := rfl
@[simp] theorem setRecord_index (id : ChunkId) (f : RepairRecord → RepairRecord) (s : State) : (setRecord id f s).index = s.index := rfl
@[simp] theorem setRecord_alloc (id : ChunkId) (f : RepairRecord → RepairRecord) (s : State) : (setRecord id f s).alloc = s.alloc := rfl
@[simp] theorem setRecord_ports (id : ChunkId) (f : RepairRecord → RepairRecord) (s : State) : (setRecord id f s).ports = s.ports := rfl
@[simp] theorem setRecord_sessions (id : ChunkId) (f : RepairRecord → RepairRecord) (s : State) : (setRecord id f s).sessions = s.sessions := rfl
@[simp] theorem setRecord_catalog (id : ChunkId) (f : RepairRecord → RepairRecord) (s : State) : (setRecord id f s).catalog = s.catalog := rfl
@[simp] theorem setRecord_ckpt (id : ChunkId) (f : RepairRecord → RepairRecord) (s : State) : (setRecord id f s).ckpt = s.ckpt := rfl
@[simp] theorem setRecord_peers (id : ChunkId) (f : RepairRecord → RepairRecord) (s : State) : (setRecord id f s).peers = s.peers := rfl
@[simp] theorem setRecord_power (id : ChunkId) (f : RepairRecord → RepairRecord) (s : State) : (setRecord id f s).power = s.power := rfl
@[simp] theorem setRecord_timers (id : ChunkId) (f : RepairRecord → RepairRecord) (s : State) : (setRecord id f s).timers = s.timers := rfl
@[simp] theorem setRecord_report (id : ChunkId) (f : RepairRecord → RepairRecord) (s : State) : (setRecord id f s).report = s.report := rfl

@[simp] theorem indexAnswers_pending (a : IndexAnswer) (s : State) : (indexAnswers a s).pending = s.pending := rfl
@[simp] theorem indexAnswers_mail (a : IndexAnswer) (s : State) : (indexAnswers a s).mail = s.mail := rfl
@[simp] theorem indexAnswers_stalled (a : IndexAnswer) (s : State) : (indexAnswers a s).stalled = s.stalled := rfl
@[simp] theorem indexAnswers_fenceWaiting (a : IndexAnswer) (s : State) : (indexAnswers a s).fenceWaiting = s.fenceWaiting := rfl
@[simp] theorem indexAnswers_freeIx (a : IndexAnswer) (s : State) : (indexAnswers a s).freeIx = s.freeIx := rfl
@[simp] theorem indexAnswers_flash (a : IndexAnswer) (s : State) : (indexAnswers a s).flash = s.flash := rfl
@[simp] theorem indexAnswers_dram (a : IndexAnswer) (s : State) : (indexAnswers a s).dram = s.dram := rfl
@[simp] theorem indexAnswers_cold (a : IndexAnswer) (s : State) : (indexAnswers a s).cold = s.cold := rfl
@[simp] theorem indexAnswers_link (a : IndexAnswer) (s : State) : (indexAnswers a s).link = s.link := rfl
@[simp] theorem indexAnswers_engine (a : IndexAnswer) (s : State) : (indexAnswers a s).engine = s.engine := rfl
@[simp] theorem indexAnswers_alloc (a : IndexAnswer) (s : State) : (indexAnswers a s).alloc = s.alloc := rfl
@[simp] theorem indexAnswers_ports (a : IndexAnswer) (s : State) : (indexAnswers a s).ports = s.ports := rfl
@[simp] theorem indexAnswers_sessions (a : IndexAnswer) (s : State) : (indexAnswers a s).sessions = s.sessions := rfl
@[simp] theorem indexAnswers_catalog (a : IndexAnswer) (s : State) : (indexAnswers a s).catalog = s.catalog := rfl
@[simp] theorem indexAnswers_verify (a : IndexAnswer) (s : State) : (indexAnswers a s).verify = s.verify := rfl
@[simp] theorem indexAnswers_ckpt (a : IndexAnswer) (s : State) : (indexAnswers a s).ckpt = s.ckpt := rfl
@[simp] theorem indexAnswers_peers (a : IndexAnswer) (s : State) : (indexAnswers a s).peers = s.peers := rfl
@[simp] theorem indexAnswers_power (a : IndexAnswer) (s : State) : (indexAnswers a s).power = s.power := rfl
@[simp] theorem indexAnswers_timers (a : IndexAnswer) (s : State) : (indexAnswers a s).timers = s.timers := rfl
@[simp] theorem indexAnswers_report (a : IndexAnswer) (s : State) : (indexAnswers a s).report = s.report := rfl

@[simp] theorem changeEntry_pending (pos : Nat) (f : Entry → Entry) (s : State) : (changeEntry pos f s).pending = s.pending := rfl
@[simp] theorem changeEntry_mail (pos : Nat) (f : Entry → Entry) (s : State) : (changeEntry pos f s).mail = s.mail := rfl
@[simp] theorem changeEntry_stalled (pos : Nat) (f : Entry → Entry) (s : State) : (changeEntry pos f s).stalled = s.stalled := rfl
@[simp] theorem changeEntry_fenceWaiting (pos : Nat) (f : Entry → Entry) (s : State) : (changeEntry pos f s).fenceWaiting = s.fenceWaiting := rfl
@[simp] theorem changeEntry_freeIx (pos : Nat) (f : Entry → Entry) (s : State) : (changeEntry pos f s).freeIx = s.freeIx := rfl
@[simp] theorem changeEntry_flash (pos : Nat) (f : Entry → Entry) (s : State) : (changeEntry pos f s).flash = s.flash := rfl
@[simp] theorem changeEntry_dram (pos : Nat) (f : Entry → Entry) (s : State) : (changeEntry pos f s).dram = s.dram := rfl
@[simp] theorem changeEntry_cold (pos : Nat) (f : Entry → Entry) (s : State) : (changeEntry pos f s).cold = s.cold := rfl
@[simp] theorem changeEntry_link (pos : Nat) (f : Entry → Entry) (s : State) : (changeEntry pos f s).link = s.link := rfl
@[simp] theorem changeEntry_engine (pos : Nat) (f : Entry → Entry) (s : State) : (changeEntry pos f s).engine = s.engine := rfl
@[simp] theorem changeEntry_alloc (pos : Nat) (f : Entry → Entry) (s : State) : (changeEntry pos f s).alloc = s.alloc := rfl
@[simp] theorem changeEntry_ports (pos : Nat) (f : Entry → Entry) (s : State) : (changeEntry pos f s).ports = s.ports := rfl
@[simp] theorem changeEntry_sessions (pos : Nat) (f : Entry → Entry) (s : State) : (changeEntry pos f s).sessions = s.sessions := rfl
@[simp] theorem changeEntry_catalog (pos : Nat) (f : Entry → Entry) (s : State) : (changeEntry pos f s).catalog = s.catalog := rfl
@[simp] theorem changeEntry_verify (pos : Nat) (f : Entry → Entry) (s : State) : (changeEntry pos f s).verify = s.verify := rfl
@[simp] theorem changeEntry_ckpt (pos : Nat) (f : Entry → Entry) (s : State) : (changeEntry pos f s).ckpt = s.ckpt := rfl
@[simp] theorem changeEntry_peers (pos : Nat) (f : Entry → Entry) (s : State) : (changeEntry pos f s).peers = s.peers := rfl
@[simp] theorem changeEntry_power (pos : Nat) (f : Entry → Entry) (s : State) : (changeEntry pos f s).power = s.power := rfl
@[simp] theorem changeEntry_timers (pos : Nat) (f : Entry → Entry) (s : State) : (changeEntry pos f s).timers = s.timers := rfl
@[simp] theorem changeEntry_report (pos : Nat) (f : Entry → Entry) (s : State) : (changeEntry pos f s).report = s.report := rfl

/-- Messages join the mail in order. -/
@[simp] theorem post_mail (c : Instr) (s : State) : (post c s).mail = s.mail ++ [.cmd c] := rfl

@[simp] theorem postAll_mail (cs : List Instr) (s : State) : (postAll cs s).mail = s.mail ++ cs.map Work.cmd := by
  induction cs generalizing s with
  | nil => simp [postAll]
  | cons c cs ih => simp [postAll, ih]

@[simp] theorem postAll_pending (cs : List Instr) (s : State) : (postAll cs s).pending = s.pending := by
  induction cs generalizing s with
  | nil => rfl
  | cons c cs ih => simp [postAll, ih]
@[simp] theorem postAll_stalled (cs : List Instr) (s : State) : (postAll cs s).stalled = s.stalled := by
  induction cs generalizing s with
  | nil => rfl
  | cons c cs ih => simp [postAll, ih]
@[simp] theorem postAll_fenceWaiting (cs : List Instr) (s : State) : (postAll cs s).fenceWaiting = s.fenceWaiting := by
  induction cs generalizing s with
  | nil => rfl
  | cons c cs ih => simp [postAll, ih]
@[simp] theorem postAll_freeIx (cs : List Instr) (s : State) : (postAll cs s).freeIx = s.freeIx := by
  induction cs generalizing s with
  | nil => rfl
  | cons c cs ih => simp [postAll, ih]
@[simp] theorem postAll_flash (cs : List Instr) (s : State) : (postAll cs s).flash = s.flash := by
  induction cs generalizing s with
  | nil => rfl
  | cons c cs ih => simp [postAll, ih]
@[simp] theorem postAll_dram (cs : List Instr) (s : State) : (postAll cs s).dram = s.dram := by
  induction cs generalizing s with
  | nil => rfl
  | cons c cs ih => simp [postAll, ih]
@[simp] theorem postAll_cold (cs : List Instr) (s : State) : (postAll cs s).cold = s.cold := by
  induction cs generalizing s with
  | nil => rfl
  | cons c cs ih => simp [postAll, ih]
@[simp] theorem postAll_link (cs : List Instr) (s : State) : (postAll cs s).link = s.link := by
  induction cs generalizing s with
  | nil => rfl
  | cons c cs ih => simp [postAll, ih]
@[simp] theorem postAll_engine (cs : List Instr) (s : State) : (postAll cs s).engine = s.engine := by
  induction cs generalizing s with
  | nil => rfl
  | cons c cs ih => simp [postAll, ih]
@[simp] theorem postAll_index (cs : List Instr) (s : State) : (postAll cs s).index = s.index := by
  induction cs generalizing s with
  | nil => rfl
  | cons c cs ih => simp [postAll, ih]
@[simp] theorem postAll_alloc (cs : List Instr) (s : State) : (postAll cs s).alloc = s.alloc := by
  induction cs generalizing s with
  | nil => rfl
  | cons c cs ih => simp [postAll, ih]
@[simp] theorem postAll_ports (cs : List Instr) (s : State) : (postAll cs s).ports = s.ports := by
  induction cs generalizing s with
  | nil => rfl
  | cons c cs ih => simp [postAll, ih]
@[simp] theorem postAll_sessions (cs : List Instr) (s : State) : (postAll cs s).sessions = s.sessions := by
  induction cs generalizing s with
  | nil => rfl
  | cons c cs ih => simp [postAll, ih]
@[simp] theorem postAll_catalog (cs : List Instr) (s : State) : (postAll cs s).catalog = s.catalog := by
  induction cs generalizing s with
  | nil => rfl
  | cons c cs ih => simp [postAll, ih]
@[simp] theorem postAll_verify (cs : List Instr) (s : State) : (postAll cs s).verify = s.verify := by
  induction cs generalizing s with
  | nil => rfl
  | cons c cs ih => simp [postAll, ih]
@[simp] theorem postAll_ckpt (cs : List Instr) (s : State) : (postAll cs s).ckpt = s.ckpt := by
  induction cs generalizing s with
  | nil => rfl
  | cons c cs ih => simp [postAll, ih]
@[simp] theorem postAll_peers (cs : List Instr) (s : State) : (postAll cs s).peers = s.peers := by
  induction cs generalizing s with
  | nil => rfl
  | cons c cs ih => simp [postAll, ih]
@[simp] theorem postAll_power (cs : List Instr) (s : State) : (postAll cs s).power = s.power := by
  induction cs generalizing s with
  | nil => rfl
  | cons c cs ih => simp [postAll, ih]
@[simp] theorem postAll_timers (cs : List Instr) (s : State) : (postAll cs s).timers = s.timers := by
  induction cs generalizing s with
  | nil => rfl
  | cons c cs ih => simp [postAll, ih]
@[simp] theorem postAll_report (cs : List Instr) (s : State) : (postAll cs s).report = s.report := by
  induction cs generalizing s with
  | nil => rfl
  | cons c cs ih => simp [postAll, ih]

end Sys2Proof.Machine
end

