-- ==== Sys2Proof/Laws/Ops.lean ====
section
/-! SUPPORT. One law for each shared operation: what it gives, and what it leaves alone. -/

namespace Sys2Proof.Machine

/-! ### Vectors and lists -/

@[simp] theorem put_self {n : Nat} (v : Vector α n) (i : Fin n) (x : α) : (put v i x)[i.val] = x := by
  simp [put]

theorem put_other {n : Nat} (v : Vector α n) (i j : Fin n) (x : α) (h : j ≠ i) : (put v i x)[j.val] = v[j.val] := by
  have : i.val ≠ j.val := fun e => h (Fin.ext e.symm)
  simp [put, this]

theorem put_get {n : Nat} (v : Vector α n) (i j : Fin n) (x : α) :
    (put v i x)[j.val] = if j = i then x else v[j.val] := by
  by_cases h : j = i
  · subst h; simp
  · simp [h, put_other v i j x h]

@[simp] theorem put_put {n : Nat} (v : Vector α n) (i : Fin n) (x y : α) : put (put v i x) i y = put v i y := by
  simp [put]

/-! ### Frames -/

theorem ChangesOnly.refl (ps : List Part) (s : State) : ChangesOnly ps s s := by
  intro p _; cases p <;> rfl

theorem ChangesOnly.trans {ps : List Part} {s t u : State} (h : ChangesOnly ps s t) (k : ChangesOnly ps t u) :
    ChangesOnly ps s u := by
  intro p hp
  have a := h p hp
  have b := k p hp
  cases p <;> simp only [Part.Same] at * <;> rw [b, a]

theorem ChangesOnly.mono {ps qs : List Part} {s u : State} (h : ChangesOnly ps s u) (k : ∀ p ∈ ps, p ∈ qs) :
    ChangesOnly qs s u := fun p hp => h p (fun hq => hp (k p hq))

/-! ### Work that waits -/

/-- Work that no earlier waiting work stands before, and that stalls nowhere, is done at once. -/
theorem asWork_of_none {w : Work} {f : State → State} {s : State} (q : s.ckpt.waiters = [])
    (h : (f s).stalled = none) : asWork w f s = f s := by
  simp [asWork, waitsBehind, q, h]

/-- With no index work waiting, a request to the index from another unit's work is taken at once. -/
theorem onIndex_of_free {f : State → State} {s : State} (h : s.ckpt.waiters.any (fun v => unitOf v = .index) = false) :
    onIndex f s = f s := by
  simp [onIndex, h]

/-- Behind index work that waits, the whole work has to wait (R19, R136). -/
theorem onIndex_waits {f : State → State} {s : State} (h : s.ckpt.waiters.any (fun v => unitOf v = .index) = true) :
    (onIndex f s).stalled = some .shadow := by
  simp [onIndex, h]

theorem unlessHalted_of {f : State → State} {s : State} (h : s.power.station ≠ .halted) :
    unlessHalted f s = f s := by
  simp [unlessHalted, h]

/-- Work of an owner that stalls nowhere, in a station that is not HALTED, is done at once. -/
theorem ownerWork_done {c : Instr} {f : State → State} {s : State} (q : s.ckpt.waiters = [])
    (h : s.power.station ≠ .halted) (k : (f s).stalled = none) : ownerWork c f s = f s := by
  have e : unlessHalted f s = f s := unlessHalted_of h
  rw [ownerWork, asWork_of_none q (by rw [e]; exact k), e]

/-- A change report outside a captured image's writing stalls nothing: it makes the change state CHANGED and starts
CHECKPOINT, at most (R134). -/
theorem noteChange_free (p : ImagePart) (s : State) (h : s.ckpt.current = none) :
    noteChange p s = if s.ckpt.state = .halted ∨ p = .scrub then s else markChanged s := by
  have k (t : State) (e : t.ckpt.current = none) : copyPage p t = t := by simp [copyPage, e]
  have m : (markChanged s).ckpt.current = none := by
    unfold markChanged
    split
    · exact h
    · split <;> exact h
  by_cases a : s.ckpt.state = .halted
  · simp [noteChange, a]
  · by_cases b : p = .scrub
    · simp only [noteChange, a, b, if_false, if_true, or_true]
      exact b ▸ k s h
    · simp [noteChange, a, b, k _ m]

/-- A change state already CHANGED stays as it is (R134). -/
theorem markChanged_twice (s : State) : markChanged (markChanged s) = markChanged s := by
  have c : (markChanged s).ckpt.changed = true := by
    unfold markChanged
    split
    · assumption
    · split <;> rfl
  rw [markChanged, if_pos c]

/-- Several changes reported outside a captured image's writing do what one of them does. -/
theorem noteChanges_free (ps : List ImagePart) (s : State) (h : s.ckpt.current = none) (hp : ∀ p ∈ ps, p ≠ .scrub) :
    noteChanges ps s = if ps = [] ∨ s.ckpt.state = .halted then s else markChanged s := by
  have e (t : State) : (markChanged t).ckpt.state = t.ckpt.state ∧ (markChanged t).ckpt.current = t.ckpt.current := by
    unfold markChanged
    split
    · exact ⟨rfl, rfl⟩
    · split <;> exact ⟨rfl, rfl⟩
  induction ps generalizing s with
  | nil => rfl
  | cons p ps ih =>
    have np : p ≠ .scrub := hp p (by simp)
    have nps := fun q (m : q ∈ ps) => hp q (by simp [m])
    show noteChanges ps (noteChange p s) = _
    rw [noteChange_free p s h]
    by_cases a : s.ckpt.state = .halted
    · simp [a, ih s h nps]
    · simp only [a, np, or_self, if_false, reduceCtorEq]
      rw [ih _ ((e s).2.trans h) nps, (e s).1, markChanged_twice, ite_self]

/-- What a frame hands on is taken at once where no work waits and it stalls nowhere; the peer directory's part never waits
(R146, R193). -/
theorem passOn_done {x : Handed} {s : State} (q : s.ckpt.waiters = []) (h : s.power.station ≠ .halted)
    (k : (takeHanded x s).stalled = none) : passOn x s = takeHanded x s := by
  have e : unlessHalted (takeHanded x) s = takeHanded x s := unlessHalted_of h
  rw [passOn, asWork_of_none q (by rw [e]; exact k), e]

/-- Behind catalog work that waits for a shadow slot, what a frame hands on joins the waiting work and changes nothing else
(R136, R146). -/
theorem passOn_waits {x : Handed} {s : State} (h : s.ckpt.waiters.any (fun v => unitOf v = .catalog) = true) :
    passOn x s = { s with ckpt.waiters := s.ckpt.waiters ++ [.heard x] } := by
  have w : waitsBehind (.heard x) s = true := by
    simp only [waitsBehind, Bool.and_eq_true]
    exact ⟨rfl, h⟩
  rw [passOn, asWork, if_pos w]

/-! ### Timers -/

theorem takeExpiry_due {t : TimerNo} {stage : Stage} {s : State} (h : ExpiryDue t stage s) :
    takeExpiry t stage s =
      some { s with timers := put s.timers t { s.timers[t] with pending := (s.timers[t]).pending.tail } } := by
  obtain ⟨held, r, rest, hp, hs⟩ := h
  unfold takeExpiry
  simp only [hp, held]
  by_cases m : timerMode t = .twoStage
  · simp [hs m]
  · simp [m]

theorem startTimer_started (t : TimerNo) (n m : Int) (s : State) : TimerStarted t n (startTimer t n s m) := by
  simp [TimerStarted, startTimer, Timer.start]

theorem stopTimer_stopped (t : TimerNo) (s : State) : TimerStopped t (stopTimer t s) := by
  simp [TimerStopped, stopTimer, Timer.stop]

theorem startTimer_others (t : TimerNo) (n m : Int) (s : State) :
    OtherTimersSame [t] s (startTimer t n s m) := by
  intro t' h
  simp [startTimer, put_other _ _ _ _ (by simpa using h)]

theorem stopTimer_others (t : TimerNo) (s : State) : OtherTimersSame [t] s (stopTimer t s) := by
  intro t' h
  simp [stopTimer, put_other _ _ _ _ (by simpa using h)]

/-! ### Frames of the link -/

/-- Frames handed over join while there is room, and the others wait; nothing else of the link changes (R191). -/
theorem handOn_frame (d : Option Deed) (r : Bool) (fs : List TxFrame) (l : Link) :
    ∃ tx wait, handOn d r fs l = { l with tx := tx, txWait := wait } := by
  induction fs generalizing l with
  | nil => exact ⟨l.tx, l.txWait, rfl⟩
  | cons f fs ih =>
    unfold handOn
    split
    · obtain ⟨tx, wait, e⟩ := ih { l with tx := l.tx ++ [f] }
      exact ⟨tx, wait, e⟩
    · exact ⟨l.tx, _, rfl⟩

/-- Which frames join and which wait does not depend on what the producer goes on with (R191). -/
theorem handOn_hands (d : Option Deed) (r : Bool) (fs : List TxFrame) (l : Link) :
    (handOn d r fs l).tx = (handFrames fs l).tx ∧
      (handOn d r fs l).txWait.map (·.frames) = (handFrames fs l).txWait.map (·.frames) := by
  unfold handFrames
  induction fs generalizing l with
  | nil => exact ⟨rfl, rfl⟩
  | cons f fs ih =>
    unfold handOn
    split
    · exact ih _
    · simp

/-- The transmit queue never comes to hold more than 64 frames (R191). -/
theorem handOn_bound (d : Option Deed) (r : Bool) (fs : List TxFrame) (l : Link) (h : l.tx.length ≤ 64) :
    (handOn d r fs l).tx.length ≤ 64 := by
  induction fs generalizing l with
  | nil => simpa [handOn] using h
  | cons f fs ih =>
    unfold handOn
    split
    · exact ih _ (by simp; omega)
    · simpa using h

/-- What the owner's taking of a request changes: the intake queue and the offers made (R189). -/
theorem takeRequest_frame (c : Instr) (s : State) :
    (takeRequest c s).link.tx = s.link.tx ∧ (takeRequest c s).link.txWait = s.link.txWait ∧
      ChangesOnly [.link, .mail] s (takeRequest c s) := by
  refine ⟨by simp [takeRequest, offerRequests], by simp [takeRequest, offerRequests], ?_⟩
  intro p hp
  cases p <;> simp_all [Part.Same, takeRequest, offerRequests]

/-- A configuration answer is one frame handed over (R190, R191). -/
theorem answerReport_frame (h : ReqHdr) (c : Code) (body : List Byte) (s : State) :
    ChangesOnly [.link] s (answerReport h c body s) := by
  intro p hp
  cases p <;> first | exact absurd (by decide) hp | rfl

end Sys2Proof.Machine
end

