-- ==== Sys2Proof/Laws/Frames.lean ====
section
/-! SUPPORT. The frame of each shared operation: the parts of the state it can change. -/

namespace Sys2Proof.Machine

/-- A frame is extended by an operation of a smaller frame. -/
theorem ChangesOnly.step {ps qs : List Part} {s t u : State} (h : ChangesOnly ps s t) (k : ChangesOnly qs t u)
    (m : ∀ p ∈ qs, p ∈ ps) : ChangesOnly ps s u := h.trans (k.mono m)

/-- A choice keeps the frame both branches keep. -/
theorem ChangesOnly.ite {c : Prop} [Decidable c] {ps : List Part} {s t u : State} (h : ChangesOnly ps s t)
    (k : ChangesOnly ps s u) : ChangesOnly ps s (if c then t else u) := by
  split
  · exact h
  · exact k

/-- A further operation under a condition. -/
theorem ChangesOnly.ifThen {c : Prop} [Decidable c] {ps qs : List Part} {s t u : State} (h : ChangesOnly ps s t)
    (k : ChangesOnly qs t u) (m : ∀ p ∈ qs, p ∈ ps) : ChangesOnly ps s (if c then u else t) :=
  .ite (h.step k m) h

/-! ### Messages, timers, buffers -/

theorem post_frame (c : Instr) (s : State) : ChangesOnly [.mail] s (post c s) := by
  intro p hp
  cases p <;> first | exact absurd (by decide) hp | rfl

theorem postAll_frame (cs : List Instr) (s : State) : ChangesOnly [.mail] s (postAll cs s) := by
  induction cs generalizing s with
  | nil => exact .refl _ _
  | cons c cs ih => exact (post_frame c s).trans (ih _)

theorem startTimer_frame (t : TimerNo) (n m : Int) (s : State) : ChangesOnly [.timers] s (startTimer t n s m) := by
  intro p hp
  cases p <;> first | exact absurd (by decide) hp | rfl

theorem stopTimer_frame (t : TimerNo) (s : State) : ChangesOnly [.timers] s (stopTimer t s) := by
  intro p hp
  cases p <;> first | exact absurd (by decide) hp | rfl

theorem extendTimer_frame (t : TimerNo) (n : Int) (s : State) : ChangesOnly [.timers] s (extendTimer t n s) := by
  intro p hp
  cases p <;> first | exact absurd (by decide) hp | rfl

theorem takeExpiry_frame {t : TimerNo} {stage : Stage} {s u : State} (h : takeExpiry t stage s = some u) :
    ChangesOnly [.timers] s u := by
  unfold takeExpiry at h
  dsimp only at h
  split at h
  · cases h
  · split at h
    · cases h
      intro p hp
      cases p <;> first | exact absurd (by decide) hp | rfl
    · cases h

theorem lendBuffer_frame (b : BufferNo) (w : Borrower) (s : State) : ChangesOnly [.engine] s (lendBuffer b w s) := by
  intro p hp
  cases p <;> first | exact absurd (by decide) hp | rfl

theorem requestBuffer_frame (w : Borrower) (s : State) : ChangesOnly [.engine] s (requestBuffer w s).2 := by
  intro p hp
  unfold requestBuffer
  cases p <;> first | exact absurd (by decide) hp | (dsimp only [Part.Same]; (repeat' split) <;> rfl)

theorem releaseBuffer_frame (b : BufferNo) (s : State) : ChangesOnly [.engine, .mail] s (releaseBuffer b s) := by
  intro p hp
  unfold releaseBuffer
  cases p <;> first | exact absurd (by decide) hp | (dsimp only [Part.Same]; (repeat' split) <;> rfl)

/-! ### Changes to imaged state, and the fence -/

theorem copyPage_frame (q : ImagePart) (s : State) : ChangesOnly [.ckpt, .stalled] s (copyPage q s) := by
  intro p hp
  unfold copyPage
  cases p <;> first | exact absurd (by decide) hp | (dsimp only [Part.Same]; (repeat' split) <;> rfl)

theorem markChanged_frame (s : State) : ChangesOnly [.ckpt, .timers] s (markChanged s) := by
  unfold markChanged
  refine .ite (.refl _ _) (.ite ?_ ?_) <;>
  · intro p hp
    cases p <;> first | exact absurd (by decide) hp | rfl

theorem noteChange_frame (q : ImagePart) (s : State) :
    ChangesOnly [.ckpt, .timers, .stalled] s (noteChange q s) := by
  unfold noteChange
  refine .ite (.refl _ _) (ChangesOnly.step (qs := [.ckpt, .stalled]) ?_ (copyPage_frame q _) (by decide))
  exact .ite (.refl _ _) ((markChanged_frame s).mono (by decide))

theorem noteChanges_frame (qs : List ImagePart) (s : State) :
    ChangesOnly [.ckpt, .timers, .stalled] s (noteChanges qs s) := by
  unfold noteChanges
  induction qs generalizing s with
  | nil => exact .refl _ _
  | cons q qs ih => exact (noteChange_frame q s).trans (ih _)

theorem sendDrop_frame (o : FenceOwner) (id : ChunkId) (s : State) :
    ChangesOnly [.mail, .stalled] s (sendDrop o id s) := by
  intro p hp
  unfold sendDrop
  cases p <;> first | exact absurd (by decide) hp | (dsimp only [Part.Same]; (repeat' split) <;> rfl)

theorem sendDrops_frame (o : FenceOwner) (ids : List ChunkId) (s : State) :
    ChangesOnly [.mail, .stalled] s (sendDrops o ids s) := by
  induction ids generalizing s with
  | nil => exact .refl _ _
  | cons id ids ih => exact (sendDrop_frame o id s).trans (ih _)

/-- An owner that is not fenced sends one DROP for each chunk, in order, and nothing else (R135). -/
theorem sendDrops_open {o : FenceOwner} (ids : List ChunkId) {s : State} (h : ownerFenced o s = false) :
    sendDrops o ids s = { s with mail := s.mail ++ ids.map (fun id => .cmd (.drop id)) } := by
  induction ids generalizing s with
  | nil => simp [sendDrops]
  | cons id ids ih =>
    have k : ownerFenced o (post (.drop id) s) = false := by cases o <;> simpa [ownerFenced, post] using h
    rw [sendDrops, sendDrop, h, if_neg (by simp), ih k]
    simp [post]

theorem sendMarks_frame (ids : List ChunkId) (s : State) :
    ChangesOnly [.mail, .stalled, .catalog] s (sendMarks ids s) := by
  induction ids generalizing s with
  | nil => exact .refl _ _
  | cons id ids ih =>
    refine ChangesOnly.trans ?_ (ih _)
    intro p hp
    cases p <;> first | exact absurd (by decide) hp | (dsimp only [Part.Same]; (repeat' split) <;> rfl)

/-! ### Flags and HALTED -/

theorem setFlag_frame (f : Flag) (s : State) : ChangesOnly [.report] s (setFlag f s) := by
  intro p hp
  cases p <;> first | exact absurd (by decide) hp | rfl

theorem stopTimers_frame (ts : List TimerNo) (s : State) : ChangesOnly [.timers] s (stopTimers ts s) := by
  induction ts generalizing s with
  | nil => exact .refl _ _
  | cons t ts ih => exact (stopTimer_frame t s).trans (ih _)

/-- What the entry into HALTED changes (R162). -/
theorem enterHalted_frame (why : HaltReason) (s : State) :
    ChangesOnly [.power, .report, .link, .ckpt, .cold, .timers] s (enterHalted why s) := by
  have h : ChangesOnly [.power, .report, .link, .ckpt, .cold, .timers] s
      (stopTimers haltedTimers (setFlag .haltReason s)) :=
    (ChangesOnly.mono (setFlag_frame _ s) (by decide)).step (stopTimers_frame haltedTimers _) (by decide)
  refine ChangesOnly.trans h ?_
  intro p hp
  cases p <;> first | exact absurd (by decide) hp | rfl

/-! ### The link unit -/

theorem transmit_frame (fs : List TxFrame) (s : State) : ChangesOnly [.link] s (transmit fs s) := by
  intro p hp
  cases p <;> first | exact absurd (by decide) hp | rfl

/-- Frames handed on, and then work of the producer's, change the link and what that work changes (R191). -/
theorem transmitThen_frame (fs : List TxFrame) (d : Deed) {go : State → State} {ps : List Part}
    (k : ∀ s, ChangesOnly ps s (go s)) (s : State) : ChangesOnly (.link :: ps) s (transmitThen fs d go s) := by
  have a (l : Link) : ChangesOnly (.link :: ps) s { s with link := l } := by
    intro p hp
    cases p <;> first | exact absurd (List.mem_cons_self) hp | rfl
  unfold transmitThen
  exact .ite ((a _).step (k _) (fun _ => List.mem_cons_of_mem _)) (a _)

theorem answer_frame (h : ReqHdr) (c : Code) (body : List Byte) (more : Bool) (s : State) :
    ChangesOnly [.link] s (answer h c body more s) := transmit_frame _ s

theorem refuse_frame (h : ReqHdr) (c : Code) (s : State) : ChangesOnly [.link] s (refuse h c s) :=
  answer_frame h c [] false s

theorem answerChunk_frame (h : ReqHdr) (bytes : List Byte) (s : State) :
    ChangesOnly [.link] s (answerChunk h bytes s) := transmit_frame _ s

theorem rearmReply_frame (before : Option OutEntry) (s : State) : ChangesOnly [.timers] s (rearmReply before s) := by
  unfold rearmReply
  split
  · exact stopTimer_frame _ s
  · exact .ite (.refl _ _) (startTimer_frame _ _ _ s)

theorem sendAskNow_frame (a : Ask) (s : State) : ChangesOnly [.link, .timers] s (sendAskNow a s) := by
  unfold sendAskNow
  refine ChangesOnly.step (ChangesOnly.trans ?_ ((transmit_frame _ _).mono (by decide))) (rearmReply_frame _ _)
    (by decide)
  intro p hp
  cases p <;> first | exact absurd (by decide) hp | rfl

theorem sendAsk_frame (a : Ask) (s : State) : ChangesOnly [.link, .timers] s (sendAsk a s) := by
  unfold sendAsk
  refine .ite (sendAskNow_frame a s) ?_
  intro p hp
  cases p <;> first | exact absurd (by decide) hp | rfl

theorem admitAsk_frame (s : State) : ChangesOnly [.link, .timers] s (admitAsk s) := by
  unfold admitAsk
  split
  · exact .refl _ _
  · refine .ite (ChangesOnly.trans ?_ (sendAskNow_frame _ _)) (.refl _ _)
    intro p hp
    cases p <;> first | exact absurd (by decide) hp | rfl

theorem withdrawAsk_frame (who : Asker) (s : State) : ChangesOnly [.link, .timers] s (withdrawAsk who s) := by
  unfold withdrawAsk
  refine ChangesOnly.trans (ChangesOnly.step ?_ (rearmReply_frame _ _) (by decide)) (admitAsk_frame _)
  intro p hp
  cases p <;> first | exact absurd (by decide) hp | rfl

theorem offerRequests_frame (s : State) : ChangesOnly [.link, .mail] s (offerRequests s) := by
  unfold offerRequests
  refine ChangesOnly.step ?_ (postAll_frame _ _) (by decide)
  intro p hp
  cases p <;> first | exact absurd (by decide) hp | rfl

theorem deferRequest_frame (h : ReqHdr) (c : Instr) (s : State) : ChangesOnly [.link] s (deferRequest h c s) := by
  intro p hp
  unfold deferRequest
  cases p <;> first | exact absurd (by decide) hp | (dsimp only [Part.Same]; (repeat' split) <;> rfl)

/-! ### The allocator -/

/-- The first of the ports that a test finds is the lowest that meets it. -/
theorem find_lowest {n : Nat} {f : Fin n → Bool} {d : Fin n} :
    (List.finRange n).find? f = some d ↔ f d = true ∧ ∀ p, p < d → f p = false := by
  rw [List.find?_eq_some_iff_getElem]
  simp only [List.getElem_finRange, List.length_finRange, Bool.not_eq_true']
  constructor
  · rintro ⟨hd, i, hi, rfl, k⟩
    exact ⟨hd, fun p hp => k p.val hp⟩
  · rintro ⟨hd, k⟩
    exact ⟨hd, d.val, d.isLt, rfl, fun j hj => k ⟨j, by omega⟩ hj⟩

/-- Where a MISSING member goes that cannot stay in its slot: the lowest slot that is free, not held empty by its disk and not
set apart; with none it leaves the table (R34; log 35). -/
theorem rehouse_cases (apart : List DiskPort) (k : Nat) (s : State) :
    let able := fun (d : DiskPort) => s.alloc.members[d] = none ∧ slotBarred d s = false ∧ d ∉ apart
    (∃ d, able d ∧ (∀ p, p < d → ¬ able p) ∧
        rehouse apart k s = { s with alloc.members := put s.alloc.members d (some { number := k, map := none }) }) ∨
      ((∀ d, ¬ able d) ∧ rehouse apart k s = s) := by
  intro able
  have e (d : DiskPort) :
      ((s.alloc.members[d]).isNone && !slotBarred d s && !apart.contains d) = true ↔ able d := by
    simp [able, and_assoc]
  unfold rehouse
  split
  · next d h =>
    obtain ⟨hd, low⟩ := find_lowest.mp h
    exact .inl ⟨d, (e d).mp hd, fun p hp a => Bool.noConfusion (((e p).mpr a).symm.trans (low p hp)), rfl⟩
  · next h => exact .inr ⟨fun d a => absurd ((e d).mpr a) (List.find?_eq_none.mp h d (List.mem_finRange d)), rfl⟩

theorem rehouse_frame (apart : List DiskPort) (k : Nat) (s : State) : ChangesOnly [.alloc] s (rehouse apart k s) := by
  intro p hp
  unfold rehouse
  cases p <;> first | exact absurd (by decide) hp | (dsimp only [Part.Same]; split <;> rfl)

theorem notTaken_frame (numbers : List Nat) (d : DiskPort) (s : State) :
    ChangesOnly [.alloc] s (notTaken numbers d s) := by
  have h : ChangesOnly [.alloc] s { s with alloc.members := put s.alloc.members d none } := by
    intro p hp
    cases p <;> first | exact absurd (by decide) hp | rfl
  unfold notTaken
  dsimp only
  split
  · exact h.trans (rehouse_frame _ _ _)
  · exact h

/-- Where no member stood MISSING, the slot of a disk that is not taken is emptied, and nothing else happens (R34). -/
theorem notTaken_empty {numbers : List Nat} {d : DiskPort} {s : State}
    (h : ∀ k, s.alloc.members[d] ≠ some { number := k, map := none }) :
    notTaken numbers d s = { s with alloc.members := put s.alloc.members d none } := by
  unfold notTaken
  dsimp only
  split
  · next k hk => exact absurd hk (h k)
  · rfl

theorem setMap_frame (d : DiskPort) (f : BlockMap → BlockMap) (s : State) :
    ChangesOnly [.alloc] s (setMap d f s) := by
  intro p hp
  unfold setMap
  cases p <;> first | exact absurd (by decide) hp | (dsimp only [Part.Same]; (repeat' split) <;> rfl)

/-- Taking and giving blocks leaves every member in its slot (R38). -/
theorem slotOf_setMap (k : Nat) (d : DiskPort) (f : BlockMap → BlockMap) (s : State) :
    slotOf k (setMap d f s) = slotOf k s := by
  unfold slotOf
  congr 1
  funext e
  unfold setMap
  cases hm : s.alloc.members[d] with
  | none => rfl
  | some v =>
    obtain ⟨n, m⟩ := v
    cases m with
    | none => rfl
    | some m =>
      by_cases h : e = d
      · subst h; simp [hm]
      · simp [put_other _ _ _ _ h]

/-- Freeing blocks leaves every member in its slot (R38). -/
theorem slotOf_freeBlocks (k : Nat) (p : Place) (n : Nat) (s : State) :
    slotOf k (freeBlocks p n s) = slotOf k s := by
  unfold freeBlocks
  split
  · exact slotOf_setMap _ _ _ _
  · rfl

/-- Where a copy is placed: on the member chosen, at the run found, which is taken from that member's map (R37, R38). -/
theorem placeOne_some {n : Nat} {ex : List Nat} {s u : State} {d : DiskPort} {p : Place}
    (h : placeOne n ex s = some (d, p, u)) :
    choosePlace n ex s = some d ∧
      ∃ k m, s.alloc.members[d] = some { number := k, map := some m } ∧ p.member = k ∧ m.search n = some p.first ∧
        u = setMap d (fun m => m.take p.first n) s := by
  unfold placeOne at h
  split at h
  · cases h
  · next e he =>
    split at h
    · next k m hm =>
      split at h
      · next a ha =>
        cases h
        exact ⟨he, k, m, hm, rfl, ha, rfl⟩
      · cases h
    · cases h

theorem largestFree_mem {s : State} {ds : List DiskPort} {d : DiskPort} (h : largestFree s ds = some d) : d ∈ ds := by
  induction ds generalizing d with
  | nil => cases h
  | cons e ds ih =>
    unfold largestFree at h
    split at h
    · cases h; exact List.mem_cons_self
    · next f hf =>
      split at h <;> cases h
      · exact List.mem_cons_of_mem _ (ih hf)
      · exact List.mem_cons_self

/-- The member chosen is healthy, has room and is not excluded (R37). -/
theorem choosePlace_some {n : Nat} {ex : List Nat} {s : State} {d : DiskPort} (h : choosePlace n ex s = some d) :
    canPlace n ex d s = true := by
  unfold choosePlace at h
  dsimp only at h
  split at h
  · next e he =>
    cases h
    exact (List.mem_filter.mp (List.mem_filter.mp (largestFree_mem he)).1).2
  · exact (List.mem_filter.mp (largestFree_mem h)).2

/-- A place is never on an excluded member (R29, R33, R37). -/
theorem placeOne_not_excluded {n : Nat} {ex : List Nat} {s u : State} {d : DiskPort} {p : Place}
    (h : placeOne n ex s = some (d, p, u)) : p.member ∉ ex := by
  obtain ⟨hc, k, m, hm, rfl, _, _⟩ := placeOne_some h
  have c := choosePlace_some hc
  simp only [canPlace, hm, Bool.and_eq_true, Bool.not_eq_true', List.contains_eq_mem, decide_eq_false_iff_not] at c
  exact c.2.2

theorem placeOne_frame {n : Nat} {ex : List Nat} {s u : State} {d : DiskPort} {p : Place}
    (h : placeOne n ex s = some (d, p, u)) : ChangesOnly [.alloc] s u := by
  obtain ⟨_, _, _, _, _, _, rfl⟩ := placeOne_some h
  exact setMap_frame _ _ _

theorem freeBlocks_frame (p : Place) (n : Nat) (s : State) : ChangesOnly [.alloc] s (freeBlocks p n s) := by
  unfold freeBlocks
  split
  · exact setMap_frame _ _ _
  · exact .refl _ _

theorem freeCopies_frame (n : Nat) (ps : List Place) (s : State) : ChangesOnly [.alloc] s (freeCopies n ps s) := by
  induction ps generalizing s with
  | nil => exact .refl _ _
  | cons p ps ih => exact (freeBlocks_frame p n s).trans (ih _)

theorem offerAt_frame (k : Nat) (cmd : DiskCmd) (s : State) : ChangesOnly [.mail] s (offerAt k cmd s) := by
  unfold offerAt
  split
  · exact post_frame _ s
  · exact .refl _ _

/-! ### The index -/

theorem changeEntry_frame (pos : Nat) (f : Entry → Entry) (s : State) :
    ChangesOnly [.index] s (changeEntry pos f s) := by
  intro p hp
  cases p <;> first | exact absurd (by decide) hp | rfl

theorem setEntry_frame (pos : Nat) (f : Entry → Entry) (s : State) :
    ChangesOnly [.index, .ckpt, .timers, .stalled] s (setEntry pos f s) :=
  ((changeEntry_frame pos f s).mono (by decide)).step (noteChange_frame _ _) (by decide)

theorem insertEntry_frame (pos : Nat) (e : Entry) (s : State) :
    ChangesOnly [.index, .ckpt, .timers, .stalled] s (insertEntry pos e s) := by
  unfold insertEntry
  refine ChangesOnly.step ?_ (noteChange_frame _ _) (by decide)
  intro p hp
  cases p <;> first | exact absurd (by decide) hp | rfl

theorem tryRemove_frame (pos : Nat) (s : State) :
    ChangesOnly [.index, .alloc, .mail, .ckpt, .timers, .stalled] s (tryRemove pos s) := by
  unfold tryRemove
  split
  · exact .refl _ _
  · refine .ite ?_ (.refl _ _)
    refine ChangesOnly.step (ChangesOnly.step (ChangesOnly.step ?_ (freeCopies_frame _ _ _) (by decide))
      (noteChange_frame _ _) (by decide)) (post_frame _ _) (by decide)
    intro p hp
    cases p <;> first | exact absurd (by decide) hp | rfl

theorem releaseCopies_frame (pos : Nat) (ps : List Place) (s : State) :
    ChangesOnly [.index, .alloc] s (releaseCopies pos ps s) := by
  unfold releaseCopies
  split
  · exact .refl _ _
  · exact .ite ((changeEntry_frame _ _ _).mono (by decide)) ((freeCopies_frame _ _ _).mono (by decide))

theorem callMirror_frame (s : State) : ChangesOnly [.mail] s (callMirror s) := by
  unfold callMirror
  exact .ite (post_frame _ s) (.refl _ _)

theorem queueMirror_frame (id : ChunkId) (s : State) : ChangesOnly [.verify, .mail] s (queueMirror id s) := by
  unfold queueMirror
  refine .ite (.refl _ _) (ChangesOnly.step ?_ (callMirror_frame _) (by decide))
  intro p hp
  cases p <;> first | exact absurd (by decide) hp | rfl

theorem testMirror_frame (pos : Nat) (s : State) : ChangesOnly [.verify, .mail] s (testMirror pos s) := by
  unfold testMirror
  split
  · exact .refl _ _
  · exact .ite (queueMirror_frame _ s) (.refl _ _)

theorem sendSettle_frame (id : ChunkId) (r : Settled) (s : State) : ChangesOnly [.mail] s (sendSettle id r s) :=
  postAll_frame _ s

theorem seeUnmirrored_frame (s : State) : ChangesOnly [.report] s (seeUnmirrored s) := by
  unfold seeUnmirrored
  exact .ite (setFlag_frame _ s) (.refl _ _)

theorem tellClaimant_frame (c : Claim) (r : ClaimResult) (s : State) : ChangesOnly [.mail] s (tellClaimant c r s) := by
  unfold tellClaimant
  split <;> exact post_frame _ s

theorem returnClaimed_frame (c : Claim) (s : State) : ChangesOnly [.engine, .mail] s (returnClaimed c s) := by
  unfold returnClaimed
  split
  · exact releaseBuffer_frame _ s
  · exact .refl _ _

theorem placeCopy_frame (r : Requester) (cls : ServiceClass) (id : ChunkId) (b : BufferNo) (ex : List Nat)
    (again : Bool) (s : State) : ChangesOnly [.alloc, .mail] s (placeCopy r cls id b ex again s).2 := by
  unfold placeCopy
  split
  · exact .refl _ _
  · next h => exact ((placeOne_frame h).mono (by decide)).step (offerAt_frame _ _ _) (by decide)

/-- What a settle can change (R30). -/
theorem settleEntry_frame (pos : Nat) (s : State) :
    ChangesOnly [.index, .report, .alloc, .engine, .verify, .mail, .ckpt, .timers, .stalled] s
      (settleEntry pos s) := by
  unfold settleEntry
  split
  · exact .refl _ _
  · split
    · exact .refl _ _
    · refine .ite (.refl _ _) ?_
      refine ChangesOnly.step (ChangesOnly.step (ChangesOnly.step (ChangesOnly.step (ChangesOnly.step ?_
        (releaseCopies_frame _ _ _) (by decide)) (releaseBuffer_frame _ _) (by decide)) (sendSettle_frame _ _ _)
        (by decide)) (tryRemove_frame _ _) (by decide)) (testMirror_frame _ _) (by decide)
      exact .ifThen (.ifThen ((setEntry_frame _ _ _).mono (by decide)) (setFlag_frame _ _) (by decide))
        (seeUnmirrored_frame _) (by decide)

/-- What placing a chunk's copies can change (R28). -/
theorem placeChunk_frame (pos : Nat) (s : State) :
    ChangesOnly [.index, .report, .alloc, .engine, .verify, .mail, .ckpt, .timers, .stalled] s
      (placeChunk pos s) := by
  unfold placeChunk
  split
  · exact .refl _ _
  · split
    · exact .refl _ _
    · next e _ _ w _ =>
      have a := (placeCopy_frame (.chunkWrite e.id .a) .store e.id w.buffer [] false s).mono
        (qs := [.index, .report, .alloc, .engine, .verify, .mail, .ckpt, .timers, .stalled]) (by decide)
      dsimp only
      generalize placeCopy (.chunkWrite e.id .a) .store e.id w.buffer [] false s = r at a ⊢
      have b : ChangesOnly [.index, .report, .alloc, .engine, .verify, .mail, .ckpt, .timers, .stalled] s
          (if w.wanted = .two then
            match r.1 with
            | .inWrite p _ => placeCopy (.chunkWrite e.id .b) .store e.id w.buffer [p.member] false r.2
            | _ => (NewCopy.abandoned, r.2)
          else (NewCopy.unwanted, r.2)).2 := by
        split
        · split
          · exact a.step (placeCopy_frame _ _ _ _ _ _ _) (by decide)
          · exact a
        · exact a
      exact (b.step (changeEntry_frame _ _ _) (by decide)).step (settleEntry_frame _ _) (by decide)

/-- What the index's taking of a CLAIM can change (R21). -/
theorem takeClaim_frame (c : Claim) (s : State) :
    ChangesOnly [.index, .report, .alloc, .engine, .verify, .mail, .ckpt, .timers, .stalled] s (takeClaim c s) := by
  have hit (r : ClaimResult) (pos : Nat) (e : Entry) :
      ChangesOnly [.index, .report, .alloc, .engine, .verify, .mail, .ckpt, .timers, .stalled] s
        (claimHit c r pos e s) :=
    ((ChangesOnly.ite (.refl _ _) ((setEntry_frame _ _ _).mono (by decide))).step (returnClaimed_frame _ _)
      (by decide)).step (tellClaimant_frame _ _ _) (by decide)
  have needs : ChangesOnly [.index, .report, .alloc, .engine, .verify, .mail, .ckpt, .timers, .stalled] s
      (tellClaimant c .needsBytes s) := (tellClaimant_frame _ _ _).mono (by decide)
  have pass (b : BufferNo) (u : State) : ChangesOnly [.engine] u (passBuffer b .index u) := by
    intro p hp
    cases p <;> first | exact absurd (by decide) hp | rfl
  have rev (b : BufferNo) (pos : Nat) :
      ChangesOnly [.index, .report, .alloc, .engine, .verify, .mail, .ckpt, .timers, .stalled] s
        (revive c b pos s) :=
    ((((setEntry_frame _ _ _).mono (by decide)).step (pass _ _) (by decide)).step (tellClaimant_frame _ _ _)
      (by decide)).step (placeChunk_frame _ _) (by decide)
  have miss (b : BufferNo) (pos : Nat) :
      ChangesOnly [.index, .report, .alloc, .engine, .verify, .mail, .ckpt, .timers, .stalled] s
        (missInsert c b pos s) :=
    ((((insertEntry_frame _ _ _).mono (by decide)).step (pass _ _) (by decide)).step (tellClaimant_frame _ _ _)
      (by decide)).step (placeChunk_frame _ _) (by decide)
  unfold takeClaim
  split
  · split
    · exact hit _ _ _
    · exact hit _ _ _
    · split
      · exact rev _ _
      · exact needs
    · split
      · exact rev _ _
      · exact needs
  · split
    · exact needs
    · split
      · exact miss _ _
      · exact ((releaseBuffer_frame _ s).mono (by decide)).step (tellClaimant_frame _ _ _) (by decide)

theorem takeDrop_frame (id : ChunkId) (s : State) :
    ChangesOnly [.index, .alloc, .mail, .ckpt, .timers, .stalled] s (takeDrop id s) := by
  unfold takeDrop
  split
  · exact .refl _ _
  · exact .ite (tryRemove_frame _ s)
      (((setEntry_frame _ _ _).mono (by decide)).step (tryRemove_frame _ _) (by decide))

theorem takeMark_frame (id : ChunkId) (s : State) :
    ChangesOnly [.index, .verify, .mail, .ckpt, .timers, .stalled] s (takeMark id s) := by
  have ans (a : IndexAnswer) (u : State) : ChangesOnly [.index] u (indexAnswers a u) := by
    intro p hp
    cases p <;> first | exact absurd (by decide) hp | rfl
  unfold takeMark
  split
  · exact (ans _ s).mono (by decide)
  · exact ((ChangesOnly.ite (.refl _ _) ((setEntry_frame _ _ _).mono (by decide))).step (testMirror_frame _ _)
      (by decide)).step (ans _ _) (by decide)

/-- READ_BEGIN takes a hold, at most (R32). -/
theorem readBegin_frame (id : ChunkId) (s : State) : ChangesOnly [.index] s (readBegin id s).2 := by
  unfold readBegin
  split
  · exact .refl _ _
  · split
    · split
      · exact changeEntry_frame _ _ s
      · exact .refl _ _
    · exact .refl _ _

theorem takeReadEnd_frame (id : ChunkId) (s : State) :
    ChangesOnly [.index, .alloc, .mail, .ckpt, .timers, .stalled] s (takeReadEnd id s) := by
  unfold takeReadEnd
  split
  · exact .refl _ _
  · refine .ite (tryRemove_frame _ s) (.ite ?_ ((changeEntry_frame _ _ s).mono (by decide)))
    exact ((((changeEntry_frame _ _ s).mono (by decide)).step (changeEntry_frame _ _ _) (by decide)).step
      (freeCopies_frame _ _ _) (by decide)).step (tryRemove_frame _ _) (by decide)

theorem suspect_frame (id : ChunkId) (s : State) :
    ChangesOnly [.index, .ckpt, .timers, .stalled] s (suspect id s).2 := by
  unfold suspect
  split
  · exact .refl _ _
  · split
    · exact setEntry_frame _ _ s
    · exact .refl _ _

theorem condemn_frame (id : ChunkId) (s : State) :
    ChangesOnly [.index, .report, .ckpt, .timers, .stalled] s (condemn id s).2 := by
  unfold condemn
  split
  · exact .refl _ _
  · split
    · exact ((setEntry_frame _ _ s).mono (by decide)).step (setFlag_frame _ _) (by decide)
    · exact .refl _ _

/-! ### Sessions -/

theorem setSession_frame (i : SessionNo) (f : Session → Session) (s : State) :
    ChangesOnly [.sessions, .ckpt, .timers, .stalled] s (setSession i f s) := by
  unfold setSession
  refine ChangesOnly.step ?_ (noteChange_frame _ _) (by decide)
  intro p hp
  cases p <;> first | exact absurd (by decide) hp | rfl

theorem setClientOf_frame (tag : Tag) (f : Client → Client) (s : State) :
    ChangesOnly [.sessions, .ckpt, .timers, .stalled] s (setClientOf tag f s) := by
  unfold setClientOf
  split
  · unfold setClient
    refine ChangesOnly.step ?_ (noteChange_frame _ _) (by decide)
    intro p hp
    cases p <;> first | exact absurd (by decide) hp | rfl
  · exact .refl _ _

theorem idleAgain_frame (i : SessionNo) (s : State) : ChangesOnly [.timers] s (idleAgain i s) := by
  unfold idleAgain
  split
  · exact .ite (.refl _ _) (startTimer_frame _ _ _ _)
  · exact .refl _ _

theorem answerSession_frame (i : SessionNo) (h : ReqHdr) (c : Code) (body : List Byte) (s : State) :
    ChangesOnly [.link, .timers] s (answerSession i h c body s) :=
  transmitThen_frame _ _ (idleAgain_frame i) s

/-- What a failing object can change (R68). -/
theorem failObject_frame (i : SessionNo) (c : Code) (s : State) :
    ChangesOnly [.sessions, .link, .mail, .ckpt, .timers, .stalled] s (failObject i c s) := by
  unfold failObject
  split
  · exact .refl _ _
  · split
    · exact .refl _ _
    · next x _ _ o _ =>
      have served (u : State) : ChangesOnly [.link, .mail, .timers] u (answerServed i x c u) := by
        have one (h : ReqHdr) (v : State) :
            ChangesOnly [.link, .mail, .timers] v (post (.ownerReady .sessions) (answerSession i h c [] v)) :=
          ((answerSession_frame i h c [] v).mono (by decide)).step (post_frame _ _) (by decide)
        unfold answerServed
        split
        · split
          · exact (one _ u).trans (one _ _)
          · exact one _ u
        · split
          · exact one _ u
          · exact .refl _ _
      refine ChangesOnly.step (ChangesOnly.step (ChangesOnly.step ?_ (setSession_frame _ _ _) (by decide))
        (noteChanges_frame _ _) (by decide)) (served _) (by decide)
      have drops (u : State) (h : ChangesOnly [.sessions, .link, .mail, .ckpt, .timers, .stalled] s u) :
          ChangesOnly [.sessions, .link, .mail, .ckpt, .timers, .stalled] s
            (sendDrops .sessions (heldElements o.elems) u) :=
        h.step (sendDrops_frame _ _ _) (by decide)
      split
      · exact (drops _ (.ite (.refl _ _) ((post_frame _ s).mono (by decide)))).step (setClientOf_frame _ _ _)
          (by decide)
      · exact drops _ (.ite (.refl _ _) ((post_frame _ s).mono (by decide)))

/-! ### Photo entries -/

theorem setPhoto_frame (pos : Nat) (f : Photo → Photo) (s : State) :
    ChangesOnly [.catalog, .ckpt, .timers, .stalled] s (setPhoto pos f s) := by
  unfold setPhoto
  refine ChangesOnly.step ?_ (noteChange_frame _ _) (by decide)
  intro p hp
  cases p <;> first | exact absurd (by decide) hp | rfl

theorem addPhoto_frame (q : Photo) (s : State) :
    ChangesOnly [.catalog, .ckpt, .timers, .stalled] s (addPhoto q s) := by
  unfold addPhoto
  refine ChangesOnly.step ?_ (noteChanges_frame _ _) (by decide)
  intro p hp
  cases p <;> first | exact absurd (by decide) hp | rfl

theorem noteHeld_frame (pos : Nat) (s : State) : ChangesOnly [.ckpt, .timers, .stalled] s (noteHeld pos s) := by
  unfold noteHeld
  split
  · exact noteChange_frame _ _
  · exact .refl _ _

/-! ### The peer directory -/

theorem setPeer_frame (i : Fin 32) (f : Peer → Peer) (s : State) : ChangesOnly [.peers] s (setPeer i f s) := by
  intro p hp
  cases p <;> first | exact absurd (by decide) hp | rfl

theorem freeSlot_frame (i : Fin 32) (p : ProxyNo) (s : State) : ChangesOnly [.peers, .timers] s (freeSlot i p s) := by
  refine ((stopTimer_frame (proxyTimer p) s).mono (by decide)).trans ?_
  intro q hq
  cases q <;> first | exact absurd (by decide) hq | rfl

theorem endProxy_frame (tag : Tag) (s : State) : ChangesOnly [.peers, .timers] s (endProxy tag s) := by
  unfold endProxy
  split
  · exact .refl _ _
  · split
    · exact freeSlot_frame _ _ _
    · exact freeSlot_frame _ _ _
    · exact .refl _ _

/-- What the directory changes as it takes a frame (R145 to R149, R156): its own table and slots, and PROXY timers. -/
theorem hearPeer_frame (h : ReqHdr) (f : PeerFrame) (s : State) : ChangesOnly [.peers, .timers] s (hearPeer h f s) := by
  unfold hearPeer
  split
  · exact .refl _ _
  · split
    · exact ((setPeer_frame _ _ s).mono (by decide)).trans (endProxy_frame _ _)
    · split
      · exact .refl _ _
      · intro p hp
        cases p <;> first | exact absurd (by decide) hp | rfl

/-! ### Disk ports -/

theorem setPort_frame (d : DiskPort) (f : PortRec → PortRec) (s : State) : ChangesOnly [.ports] s (setPort d f s) := by
  intro p hp
  cases p <;> first | exact absurd (by decide) hp | rfl

theorem grantSpinups_frame (n : Nat) (s : State) : ChangesOnly [.ports] s (grantSpinups n s) := by
  induction n generalizing s with
  | zero => exact .refl _ _
  | succ n ih =>
    unfold grantSpinups
    split
    · exact .refl _ _
    · refine .ite (ChangesOnly.trans (ChangesOnly.trans ?_ (setPort_frame _ _ _)) (ih _)) (.refl _ _)
      intro p hp
      cases p <;> first | exact absurd (by decide) hp | rfl

theorem askSpinup_frame (d : DiskPort) (s : State) : ChangesOnly [.ports] s (askSpinup d s) := by
  unfold askSpinup
  refine .ite (.refl _ _) (ChangesOnly.trans ?_ (grantSpinups_frame _ _))
  intro p hp
  cases p <;> first | exact absurd (by decide) hp | rfl

theorem issueStandby_frame (park : Bool) (d : DiskPort) (s : State) :
    ChangesOnly [.ports, .timers] s (issueStandby park d s) :=
  ((stopTimer_frame _ s).mono (by decide)).step (setPort_frame _ _ _) (by decide)

theorem startNext_frame (d : DiskPort) (s : State) : ChangesOnly [.ports, .timers] s (startNext d s) := by
  unfold startNext
  dsimp only
  refine .ite ?_ (.refl _ _)
  split
  · exact (setPort_frame _ _ s).mono (by decide)
  · exact .ite (issueStandby_frame _ _ s) (.refl _ _)

theorem startDiskIdle_frame (d : DiskPort) (s : State) : ChangesOnly [.timers] s (startDiskIdle d s) :=
  .ite (.refl _ _) (startTimer_frame _ _ _ _)

theorem failRange_frame (d : DiskPort) (c : DiskCmd) (s : State) : ChangesOnly [.timers] s (failRange d c s).1 :=
  .ite (startDiskIdle_frame d s) (.refl _ _)

/-- What a port's taking of an offered command can change (R48). -/
theorem takeOffer_frame (d : DiskPort) (c : DiskCmd) (s : State) :
    ChangesOnly [.ports, .timers] s (takeOffer d c s).1 := by
  have q (f : PortRec → PortRec) : ChangesOnly [.ports, .timers] s (setPort d f s) :=
    (setPort_frame d f s).mono (by decide)
  unfold takeOffer
  dsimp only
  split
  · exact .refl _ _
  · split
    · exact .refl _ _
    · split
      · exact (failRange_frame d c s).mono (by decide)
      · split
        · exact q _
        · exact ChangesOnly.trans (.ite ((q _).step (askSpinup_frame _ _) (by decide)) (q _)) (startNext_frame _ _)

theorem dropKept_frame (d : DiskPort) (gen : Word) (s : State) : ChangesOnly [.ports] s (dropKept d gen s) :=
  setPort_frame _ _ _

/-- What a command's FAILED end takes from its port before room comes about (R137): commands kept back, at most. -/
theorem failedCommand_frame (d : DiskPort) (c : DiskCmd) (s : State) : ChangesOnly [.ports] s (failedCommand d c s) := by
  unfold failedCommand
  split
  · exact dropKept_frame _ _ _
  · exact .refl _ _

/-- What a member's failure changes (R137): its record, the commands kept back for its port, and offers not taken yet. -/
theorem failMember_frame (d : DiskPort) (s : State) : ChangesOnly [.ckpt, .ports, .mail] s (failMember d s) := by
  intro p hp
  cases p <;> first | exact absurd (by decide) hp | rfl

theorem offerCommand_frame (d : DiskPort) (c : DiskCmd) (s : State) :
    ChangesOnly [.ports, .timers] s (offerCommand d c s).1 := by
  unfold offerCommand
  split
  · exact (setPort_frame _ _ s).mono (by decide)
  · exact takeOffer_frame d c s

end Sys2Proof.Machine
end

