-- ==== Sys2Proof/WellFormed.lean ====
section
/-! DEFINITION. Well-formed commands: every operand within the width and the range the spec gives its field. A command's
meaning does not depend on it; a value a rule answers (an album number above 31, a length above a declared one) is well
formed. -/

namespace Sys2Proof

/-- A chunk length is 1..131,072 bytes (R3, R21). -/
def ChunkId.wellFormed (id : ChunkId) : Bool := 1 ≤ id.length && id.length ≤ 131072

/-- A value fits a field of `n` bytes (R195). -/
def fits (n v : Nat) : Bool := v < 256 ^ n

/-- An optional text of at most `limit` bytes (R195). -/
def textFits (limit : Nat) (t : Option (List Byte)) : Bool :=
  match t with
  | none => true
  | some bs => bs.length ≤ limit

/-- A received frame holds at most 1,500 bytes after its frame type (R186). -/
def RxFrame.wellFormed (f : RxFrame) : Bool := f.bytes.length ≤ 1500

/-- What a READ brought fills whole blocks, 256 at most (R43). -/
def ReadData.wellFormed (d : ReadData) : Bool :=
  match d with
  | .bytes bs => bs.length % 4096 = 0 && 1 ≤ bs.length / 4096 && bs.length / 4096 ≤ 256
  | .nothing => true
  | .label _ => true
  | .root _ => true
  | .pages _ => true

/-- A part of the image lies within its section (R17, R60, R63, R88, R89, R91, R103). -/
def ImagePart.wellFormed (p : ImagePart) : Bool :=
  match p with
  | .index pos => pos < 67108864 + 65536
  | .members => true
  | .client i => i < 16
  | .snapshot i n => i < 16 && n < 4294967296
  | .objectRecord i n j => i < 16 && n < 4294967296 && j < 4096
  | .session s => s < 4
  | .draft s j => s < 4 && j < 4096
  | .element s j pos => s < 4 && j < 4096 && pos < 4194304
  | .retirement k number => k < 65536 && number < 4294967296
  | .album n => n < 32
  | .photo n => n < 65536
  | .origin n => n < 32
  | .ownCounter => true
  | .fetch f => f < 2
  | .fetchElement f pos => f < 2 && pos < 4194304
  | .scrub => true

/-- An element's position in its object or recipe (R73). -/
def positionFits (pos : Nat) : Bool := pos < 4194304

/-- The claimant's element position (R21). -/
def Claimant.wellFormed (c : Claimant) : Bool :=
  match c with
  | .session _ _ pos => positionFits pos
  | .fetch _ _ pos => positionFits pos

/-- A kind OPEN_SESSION can carry (R62, R195). -/
def OpenKind.wellFormed (k : OpenKind) : Bool :=
  match k with
  | .backup => true
  | .album n t => fits 1 n && textFits 32 t

/-- The bytes of a chunk buffer and the zeros behind them make up the blocks of the WRITE (R12, R28). -/
def Area.fills (n : Nat) (a : Area) : Bool :=
  match a with
  | .buffer _ length zeros => length ≤ 131072 && length + zeros = n * 4096
  | .elements _ => true
  | .imagePages .. => true
  | .root _ => true
  | .label _ => true

/-- A queued disk command's block count (R43); a command outside the capacity is well formed and ends FAILED. -/
def DiskOp.wellFormed (o : DiskOp) : Bool :=
  match o with
  | .read _ n => 1 ≤ n && n ≤ 256
  | .write _ n a => 1 ≤ n && n ≤ 256 && a.fills n
  | .flush => true

/-- The bytes of a verified read are those of a chunk (R116). -/
def VreadOutcome.wellFormed (o : VreadOutcome) : Bool :=
  match o with
  | .good bs => 1 ≤ bs.length && bs.length ≤ 131072
  | .damaged => true
  | .busy => true
  | .absent => true

/-- Is every operand of a command within its field? -/
def Instr.wellFormed (i : Instr) : Bool :=
  match i with
  | .powerOnReset flash _ => match flash with | none => true | some bs => bs.length = 48
  | .diskDetect _ capacity => match capacity with | none => true | some n => n ≤ 4294967295
  | .rootReadStart => true
  | .intakeArrival f => f.wellFormed
  | .ownerReady _ => true
  | .openSession _ k => k.wellFormed
  | .beginObject _ _ declared caption => fits 6 declared && textFits 64 caption
  | .segment _ _ offset bytes => fits 6 offset && bytes.length ≤ 1440
  | .endObject _ _ => true
  | .closeSession _ => true
  | .abandonSession _ => true
  | .listSnapshots _ => true
  | .listObjects _ _ first => fits 4 first
  | .dropSnapshot _ _ => true
  | .getRecipeSnapshot _ _ _ first => fits 4 first
  | .getChunkSnapshot _ _ _ index => fits 4 index
  | .listAlbum _ album first => fits 1 album && fits 4 first
  | .getRecipeAlbum _ album _ first => fits 1 album && fits 4 first
  | .getChunkAlbum _ album _ index => fits 1 album && fits 4 index
  | .getChunkPrint _ id => id.wellFormed
  | .catalogSince _ _ after => fits 4 after
  | .queryStation _ => true
  | .clearFlags _ _ => true
  | .setConfig _ block _ => block.length = 44
  | .setConfigWriteDone readBack => match readBack with | none => true | some bs => bs.length = 48
  | .presence f => f.wellFormed
  | .doze f => f.wellFormed
  | .wake f => f.wellFormed
  | .holding f => f.wellFormed
  | .replyFrame f => f.wellFormed
  | .dataFrame f => f.wellFormed
  | .replyTimerExpiry => true
  | .txFrameSent => true
  | .phyLinkState _ => true
  | .listenerWake f => f.wellFormed
  | .buttonPress => true
  | .sleepDelayExpiry => true
  | .dozeHoldExpiry => true
  | .quiet => true
  | .saved => true
  | .parked _ => true
  | .parkFailed _ => true
  | .parkFinal => true
  | .wakeStabStage1Expiry => true
  | .wakeStabStage2Expiry => true
  | .pllLock => true
  | .sxtStopDetected => true
  | .sxtRestartAttempt => true
  | .sxtRestartResult _ => true
  | .timerTick => true
  | .timerStart _ _ _ => true
  | .timerStop _ => true
  | .timerExtend _ _ => true
  | .beaconExpiry => true
  | .silenceExpiry => true
  | .proxyStage1Expiry _ => true
  | .proxyStage2Expiry _ => true
  | .wantedExpiry => true
  | .catchupStart => true
  | .sessionIdleExpiry _ => true
  | .diskIdleExpiry _ => true
  | .scrubExpiry => true
  | .checkpointExpiry => true
  | .ctxBind _ => true
  | .ctxOpen _ serial => serial ≠ 0
  | .ctxEnter _ bytes => 1 ≤ bytes.length && bytes.length ≤ 1440
  | .ctxEnd _ => true
  | .ctxDiscard _ => true
  | .ctxUnbind _ => true
  | .bufferGrant _ => true
  | .segmentEntered _ _ => true
  | .objectCut _ _ => true
  | .claimOutcome _ _ pos id _ => positionFits pos && id.wellFormed
  | .sessionSettleReport id _ => id.wellFormed
  | .vreadAnswer _ o => o.wellFormed
  | .fetchClaimOutcome _ _ pos id _ => positionFits pos && id.wellFormed
  | .fetchSettleReport id _ => id.wellFormed
  | .claim c => c.id.wellFormed && c.claimant.wellFormed
  | .drop id => id.wellFormed
  | .mark id => id.wellFormed
  | .lookup id => id.wellFormed
  | .readBegin id => id.wellFormed
  | .readEnd id => id.wellFormed
  | .suspect id _ => id.wellFormed
  | .condemn id => id.wellFormed
  | .recopy r => r.id.wellFormed
  | .commandOffer _ cmd => cmd.op.wellFormed
  | .spinupReady _ => true
  | .spinupWatchExpiry _ => true
  | .diskCommandReport _ _ data => data.wellFormed
  | .commandWatchExpiry _ => true
  | .park _ => true
  | .unpark _ => true
  | .vread id _ _ => id.wellFormed
  | .recopyAnswer _ id _ _ => id.wellFormed
  | .verifySettleReport id _ => id.wellFormed
  | .removalNotice id => id.wellFormed
  | .peerRepairStart => true
  | .remirrorJobStart => true
  | .hush => true
  | .unhush => true
  | .changeReport part => part.wellFormed
  | .checkpointRequest _ => true
  | .hold => true
  | .fence _ => true
  | .fenceBack _ => true
  | .fenceRelease _ => true
  | .parkSave => true
  | .parkSaveWithdraw => true
  | .spinUpError _ => true

end Sys2Proof
end

