-- ==== Sys2Proof/Tests/Slice0.lean ====
section
/-! SUPPORT. The model's own tests: ill-formed commands refused, the spec's worked examples, and for each statement with
hypotheses a state that meets them. -/

set_option maxRecDepth 20000

namespace Sys2Proof.Tests

open Sys2Proof Sys2Proof.Machine

/-! ### States to test on -/

/-- A station's configuration: family 7, tag 11H. -/
def conf : Conf := { Conf.reset with frameType := 0x88B5, family := 7, tag := 0x11, mac := 0x020000000011 }

/-- An AWAKE station with nothing in hand. -/
def awake : State := { State.reset with cold := .finished, power.station := .awake, report.conf := conf }

/-- The same part in another station state. -/
def at0 (p : StationState) : State := { awake with power.station := p }

/-- Parking, in a step. -/
def parking (p : ParkStep) : State := { at0 .parking with power.step := p }

/-- A timer with one expiry pending. -/
def expired (t : TimerNo) (stage : Stage) (s : State) : State :=
  { s with timers := put s.timers t { Timer.reset with pending := [{ Timer.reset.core with stage := stage }] } }

theorem expired_due (t : TimerNo) (stage : Stage) (s : State) : ExpiryDue t stage (expired t stage s) := by
  exact ⟨by simp [expired, put, Timer.reset], { Timer.reset.core with stage := stage }, [], by simp [expired, put],
    fun _ => rfl⟩

/-- A port whose disk is in a spin state. -/
def port (p : SpinState) : PortRec :=
  { PortRec.reset with spin := p, capacity := 2000000, label := .hs4 { store := 5, member := 1 }, detected := true,
                       labelDone := true }

/-- A member with everything free. -/
def member (n : Nat) : Option Member := some { number := n, map := some (BlockMap.fresh 2000000) }

/-- Members 1 and 2 on READY disks at ports 0 and 1. -/
def disks (s : State) : State :=
  { s with ports.port := put (put s.ports.port 0 (port .ready)) 1 (port .ready),
           alloc.members := put (put s.alloc.members 0 (member 1)) 1 (member 2) }

/-- A chunk of one block. -/
def chunk : ChunkId := { print := 0x1234, length := 4096 }

/-- A STORED entry of it with copy A on member 1. -/
def entry : Entry :=
  { id := chunk, state := .stored, mark := false, count := 2, copyA := some { member := 1, first := 1572865 },
    copyB := none, write := none, holds := 0, recopy := none, released := [] }

/-- A station whose index holds one entry, at position 8. -/
def indexed (e : Entry) (s : State) : State := { s with index.capacity := 1024, index.entries := [(8, e)] }

/-- The header of a client's request. -/
def client : ReqHdr := { tag := 0x51, box := false, number := 9, mac := 0x020000000051 }
/-- The header of a box's request. -/
def box : ReqHdr := { tag := 0x12, box := true, number := 9, mac := 0x020000000012 }

/-- A received frame from a sender to a tag. -/
def rx (h : ReqHdr) (kind flags : Byte) (target : Tag) (payload : List Byte) : RxFrame :=
  { frameType := 0x88B5, source := h.mac,
    bytes := beBytes 4 7 ++ [kind, flags ||| (if h.box then 0x80 else 0x00)] ++ beBytes 2 h.tag.toNat ++
      beBytes 2 target.toNat ++ beBytes 2 h.number.toNat ++ beBytes 2 payload.length ++ payload }

/-- A peer table entry of the box. -/
def peer (x : Heard) : Peer :=
  { tag := 0x12, box := true, mac := 0x020000000012, heard := x, lastHeard := 0, dozeAt := none, period := 30,
    newestSeq := 0, digest := none, proxy := .idle }

/-- A station that knows the box. -/
def peered (p : Peer) (s : State) : State := { s with peers.table := put s.peers.table 0 (some p) }

/-! ### Ill-formed commands -/

/-- A frame one byte too long (R186). -/
def longFrame : RxFrame := { frameType := 0x88B5, source := 0, bytes := List.replicate 1501 0 }

/-- A chunk longer than 131,072 bytes. -/
def longChunk : ChunkId := { print := 0, length := 131073 }
/-- A chunk of no bytes. -/
def noChunk : ChunkId := { print := 0, length := 0 }

/-- One ill-formed command for each check of WellFormed. -/
def illFormed : List Instr :=
  [.powerOnReset (some []) none, .diskDetect 0 (some 4294967296), .openSession client (.album 256 none),
   .openSession client (.album 0 (some (List.replicate 33 0))), .beginObject client 0 (256 ^ 6) none,
   .beginObject client 0 0 (some (List.replicate 65 0)), .segment client 0 (256 ^ 6) [],
   .listObjects client 1 (256 ^ 4), .getRecipeSnapshot client 1 0 (256 ^ 4), .getChunkSnapshot client 1 0 (256 ^ 4),
   .listAlbum client 256 0, .listAlbum client 0 (256 ^ 4), .getRecipeAlbum client 256 0 0,
   .getRecipeAlbum client 0 0 (256 ^ 4), .getChunkAlbum client 256 0 0, .getChunkAlbum client 0 0 (256 ^ 4),
   .getChunkPrint box noChunk, .catalogSince box 1 (256 ^ 4), .setConfig client [] 0, .setConfigWriteDone (some [])] ++
  [.ctxOpen 0 0, .ctxEnter 0 [], .claimOutcome 0 1 4194304 chunk .hit, .claimOutcome 0 1 0 noChunk .hit,
   .sessionSettleReport noChunk .stored, .vreadAnswer { hdr := client, form := .restore } (.good []),
   .fetchClaimOutcome 0 1 4194304 chunk .hit, .fetchClaimOutcome 0 1 0 noChunk .hit, .fetchSettleReport noChunk .stored,
   .claim { id := longChunk, wanted := .one, claimant := .session 0 1 0, buffer := none },
   .claim { id := chunk, wanted := .one, claimant := .session 0 1 4194304, buffer := none },
   .claim { id := chunk, wanted := .one, claimant := .fetch 0 1 4194304, buffer := none }] ++
  [.drop noChunk, .mark noChunk, .lookup longChunk, .readBegin noChunk, .readEnd longChunk, .suspect noChunk .a,
   .condemn longChunk, .recopy { id := noChunk, purpose := .addB, buffer := 0, sender := .job },
   .commandOffer 0 { requester := .retirePage, cls := .serve, op := .read 0 257 },
   .commandOffer 0 { requester := .retirePage, cls := .serve, op := .write 0 0 (.elements []) },
   .commandOffer 0 { requester := .chunkWrite chunk .a, cls := .store, op := .write 0 2 (.buffer 0 4097 4094) },
   .diskCommandReport 0 { attempt := 0, good := true } (.bytes [0]), .vread noChunk .serve { hdr := client, form := .restore },
   .recopyAnswer .job noChunk 0 .done, .verifySettleReport longChunk .stored, .removalNotice noChunk,
   .changeReport (.index 67174400), .changeReport (.client 16), .changeReport (.session 4), .changeReport (.draft 4 0),
   .changeReport (.draft 0 4096), .changeReport (.element 0 0 4194304), .changeReport (.snapshot 0 4294967296),
   .changeReport (.objectRecord 0 1 4096), .changeReport (.retirement 65536 1), .changeReport (.fetchElement 2 0),
   .changeReport (.album 32), .changeReport (.photo 65536), .changeReport (.origin 32), .changeReport (.fetch 2)]

theorem test_ill_formed_refused : illFormed.all (fun i => !i.wellFormed) = true := by decide

theorem test_long_frames_refused :
    [Instr.intakeArrival longFrame, .presence longFrame, .doze longFrame, .wake longFrame, .holding longFrame,
      .replyFrame longFrame, .dataFrame longFrame, .listenerWake longFrame].all (fun i => !i.wellFormed) = true := by
  decide

theorem test_long_segment_refused : (Instr.segment client 0 0 (List.replicate 1441 0)).wellFormed = false := by decide

theorem test_long_entry_refused : (Instr.ctxEnter 0 (List.replicate 1441 0)).wellFormed = false := by decide

theorem test_no_word_spells_a_command (nbits w : Nat) : decodeTableWord nbits w = none := rfl

theorem test_full_fields_accepted :
    (Instr.listAlbum client 255 (256 ^ 4 - 1)).wellFormed = true ∧
      (Instr.claim { id := { print := 0, length := 131072 }, wanted := .two, claimant := .fetch 1 1 4194303,
                     buffer := some 63 }).wellFormed = true := by decide

/-! ### The spec's worked examples -/

/-- 01, R1's example: seed 00000001H. -/
theorem test_table_of_seed_one : (byteTable 1)[0]? = some 0x00042021 ∧ (byteTable 1)[1]? = some 0x04080601 := by
  decide

/-- 01, "Rolling sum, full window": C = 00010001H gives F = 00300001H. -/
theorem test_window_factor : windowFactor 0x00010001 = 0x00300001 := by decide

/-- An engine of the worked settings: byte 0 weighs 100H, byte 1 weighs A00H. -/
def worked (mult : Word) : Engine :=
  { State.reset.engine with table := [0x100, 0xA00], mult := mult, factor := windowFactor mult }

/-- 01, "Rolling sum, short window", both cases. -/
theorem test_sum_short_window :
    rollSum (worked 0x2F01) { Context.reset with sum := 0x00010000 } 1 = 0x2F010A00 ∧
      rollSum (worked 0x2F01) { Context.reset with sum := 0x00100000 } 1 = 0xF0100A00 := by decide

/-- 01, "Rolling sum, full window". -/
theorem test_sum_full_window :
    rollSum (worked 0x10001) { Context.reset with sum := 0x12345678, delay := List.replicate 48 0 } 1 = 0x38AC5F78 :=
  by decide

/-- 01, "Worked cutting, class 1", row by row (R7). -/
theorem test_cutting_class_one :
    cutsAt 1 1000 0 = false ∧ cutsAt 1 5000 0x00001234 = true ∧ cutsAt 1 9000 0x0003FFFF = true ∧
      cutsAt 1 20000 0x00400000 = false ∧ cutsAt 1 32768 0xFFFFFFFF = true := by decide

/-- 08, "A digest and a false match" (R153). -/
theorem test_digest_positions :
    digestBits 74565 = (837, 36) ∧ digestBits 5000 = (904, 2) ∧ digestBits 4933 = (837, 2) ∧
      digestBits 6000 = (1904, 2) := by decide

/-- 11, "A fetch's GET_CHUNK with a slow source": a 7,232-byte chunk takes five DATA frames of 1,440 bytes and one of 32
(R190). -/
theorem test_frames_of_a_chunk :
    (chunksOf 1440 7233 (List.replicate 7232 (0 : Byte))).map List.length = [1440, 1440, 1440, 1440, 1440, 32] := by
  decide

/-- SHA-256 of the bytes 61H 62H 63H, truncated to its first 128 bits (FIPS 180-4's own example; log 7). -/
theorem test_print_of_abc : printOf [0x61, 0x62, 0x63] = 0xBA7816BF8F01CFEA414140DE5DAE2223 := by decide

/-- The usual check value of CRC-32 over the digits 1 to 9. -/
theorem test_crc_check_value :
    crc32 [0x31, 0x32, 0x33, 0x34, 0x35, 0x36, 0x37, 0x38, 0x39] = 0xCBF43926 := by decide

/-! ### Witnesses: steps, invariants, cold start -/

theorem witness_StepRunsFrontCommand :
    step { awake with pending := [.quiet] } = exec .quiet { awake with pending := [] } := rfl

theorem witness_IdleStepDeliversOldestMessage :
    (awake.pending = [] ∧ awake.ckpt.waiters = [] ∧ awake.mail = [] ∧
      ({ awake with mail := [.cmd .quiet] } : State).mail = .cmd .quiet :: [] ∧
      ({ awake with mail := [.outcome 0 .labelWrite .done .nothing] } : State).mail =
        .outcome 0 .labelWrite .done .nothing :: []) ∧
    (let s : State := { awake with ckpt.waiters := [.cmd .unhush] }
     s.pending = [] ∧ s.ckpt.waiters = [.cmd .unhush] ∧
      ∃ t, exec .unhush { s with ckpt := { s.ckpt with waiters := [] } } = .next t ∧ t.ckpt.waiters = []) :=
  ⟨by decide, rfl, rfl, _, rfl, rfl⟩

theorem witness_StationInvKept : StationInv State.reset ∧ step State.reset = .next State.reset := by
  exact ⟨by unfold StationInv; decide, rfl⟩

theorem witness_HaltedUntilPowerOn :
    StationInv (at0 .halted) ∧ (at0 .halted).power.station = .halted ∧
      ∀ flash dram, Instr.buttonPress ≠ .powerOnReset flash dram := by
  exact ⟨by unfold StationInv; decide, rfl, fun _ _ h => by cases h⟩

/-- The first 44 bytes of a configuration block with the defaults of R197 (R195). -/
def block44 : List Byte :=
  beBytes 2 0x88B5 ++ beBytes 4 7 ++ beBytes 2 0x11 ++ beBytes 6 0x020000000011 ++ [1, 2] ++ beBytes 4 0x2F019A3D ++
    beBytes 4 0x4B1D29C3 ++ beBytes 2 900 ++ beBytes 2 600 ++ beBytes 2 120 ++ beBytes 2 120 ++ [30, 8] ++
    beBytes 6 0 ++ [0, 0, 1, 1]

/-- The whole block with its CRC. -/
def block48 : List Byte := block44 ++ beBytes 4 (crc32 block44).toNat

theorem test_block_gives_its_values : confOf block48 = conf := by decide

theorem witness_PowerOnReadsTheFlash :
    blockValid ((none.getD []).take 48) = false ∧ blockValid (((some (List.replicate 48 0xFF)).getD []).take 48) = false ∧
      blockValid (block48.take 48) = true ∧ (2 ^ 30 - 1 < 2 ^ 30 ∧ 2 ^ 30 ≤ 2 ^ 30) ∧
      ∀ n, (none : Option Nat) = some n → n < 2 ^ 30 := by
  exact ⟨by decide, by decide, by decide, by decide, fun n h => by cases h⟩

theorem witness_EngineStartValues : 0 < 256 ∧ 255 < 256 := by decide

theorem witness_DetectSetsPort :
    State.reset.power.station = .coldStart ∧ State.reset.cold = .ports ∧ (State.reset.ports.port[(3 : DiskPort)]).detected = false ∧
      (3 : DiskPort) ∉ State.reset.ports.waiting ∧ some 4294967295 = some 4294967295 ∧ 4294967295 ≤ 4294967295 := by
  decide

/-- Cold start with one labelled disk and three empty ports. -/
def labelled : State :=
  { State.reset with ports.port := put (Vector.replicate 4 { PortRec.reset with detected := true }) 0 (port .ready) }

theorem witness_RootReadsOffered :
    labelled.power.station = .coldStart ∧ labelled.cold = .ports ∧
      (∀ d : DiskPort, labelSettled labelled.ports.port[d] = true) ∧ (∃ d : DiskPort, (hs4Label d labelled).isSome) := by
  decide

/-! ### Witnesses: the link unit -/

/-- A client's QUERY_STATION to this station. -/
def query : RxFrame := rx client 0x40 0 0x11 []
/-- A client's LIST_SNAPSHOTS to this station. -/
def listing : RxFrame := rx client 0x20 0 0x11 []

/-- 32 requests in the intake queue. -/
def fullIntake (s : State) : State :=
  { s with link.intake := List.replicate 32 { cmd := .closeSession client, standing := .deferred } }

theorem witness_ArrivalJoinsOrMeetsBusy :
    awake.link.up = true ∧ awake.power.station = .awake ∧
      validate awake query = .good client 0x11 false (.request (.queryStation client)) ∧ awake.link.intake.length < 32 ∧
      validate (fullIntake awake) query = .good client 0x11 false (.request (.queryStation client)) ∧
      32 ≤ (fullIntake awake).link.intake.length := by decide

theorem witness_HaltedAnswersHalted :
    (at0 .halted).link.up = true ∧ (at0 .halted).power.station = .halted ∧
      validate (at0 .halted) listing = .good client 0x11 false (.request (.listSnapshots client)) ∧
      ownedBy .report (.listSnapshots client) = false := by decide

theorem witness_OwnerReadyOffersDeferred :
    (fullIntake awake).link.intake.any (fun i => ownedBy .sessions i.cmd && i.standing = .deferred) = true ∧
      (let s : State := { awake with link.intake := [{ cmd := .closeSession client, standing := .deferred }] }
       exec (.ownerReady .sessions) s =
         .next { awake with link.intake := [{ cmd := .closeSession client, standing := .offered }],
                            mail := [.cmd (.closeSession client)] }) := ⟨by decide, rfl⟩

/-- A frame to send, with or without the cold start it brings. -/
def txFrame (restart : Bool) : TxFrame := { frame awake broadcastMac 0x01 0x80 allStations 0 [] with restart := restart }

theorem witness_FrameLeavesAndWaiterJoins :
    let w : TxWaiter := { frames := [txFrame false], deed := some (.idle 2 1 none), report := false }
    let full := { awake with link.tx := List.replicate 64 (txFrame false), link.txWait := [w] }
    let last := { at0 .unconfigured with link.tx := [txFrame true] }
    (full.link.tx = txFrame false :: List.replicate 63 (txFrame false) ∧ full.link.tx.length ≤ 64 ∧
      full.power.station ≠ .unconfigured ∧ full.link.txWait = w :: [] ∧ w.frames = txFrame false :: [] ∧
      w.deed = some (.idle 2 1 none) ∧ awake.link.txWait = []) ∧
    (last.link.tx = txFrame true :: [] ∧ last.power.station = .unconfigured ∧ (txFrame true).restart = true) := by
  decide

theorem witness_PhyStateIsNoted : ({ awake with link.up := false } : State).link.up = false := rfl

/-- An outgoing request to the box, under number 9. -/
def asked (k : AskKind) (a : Asker) : OutEntry :=
  { number := 9, target := 0x12, kind := k, asker := a, deadline := 100, made := 0 }

/-- A station with that request out. -/
def asking (k : AskKind) (a : Asker) : State := { awake with link.outgoing := [asked k a] }

/-- A photo of album 31 in a state, with its holders. -/
def photo (x : PhotoState) (hs : List Tag) : Photo :=
  { album := 31, id := 500, origin := 0x12, seq := 1, length := 4096, caption := none, state := x, holders := hs,
    more := false, extent := some { place := { member := 1, first := 1572865 }, count := 300 } }

theorem witness_CatalogFollowsItsPeers_reply :
    let talk : Conversation := { origin := 0x12, after := 0 }
    let m : Summary := { album := 31, id := 500, origin := 0x12, seq := 1, length := 4096 }
    let s : State := { asking .catalogSince .catchup with
      catalog.talk := some talk, catalog.origins := [{ tag := 0x12, caughtUp := 1 }], catalog.photos := [photo .held [0x12]] }
    let f := rx box 0x70 0x40 0x11 [0x01]
    let g := rx box 0x70 0x60 0x11 ([0x00, 0x01] ++ summaryBytes m)
    (s.link.up = true ∧ s.power.station = .awake ∧ validate s f = .good box 0x11 false (.reply 0x01 []) ∧
      s.link.outgoing = [asked .catalogSince .catchup] ∧ (asked .catalogSince .catchup).number = box.number ∧
      (asked .catalogSince .catchup).target = box.tag ∧ s.link.askWait = [] ∧ s.catalog.talk = some talk ∧
      s.catalog.pending = [] ∧ AtEase s) ∧
    (validate s g = .good box 0x11 true (.reply 0 (1 :: summaryBytes m)) ∧ summaryOf (summaryBytes m) = m ∧
      summaryBad m = false ∧ m.origin = talk.origin ∧ talk.origin ≠ s.conf.tag ∧ (findOrigin talk.origin s).isSome ∧
      m.seq ≤ caughtUp talk.origin s ∧ findPhoto m.album m.id s = some 0 ∧
      s.catalog.photos[0]? = some (photo .held [0x12]) ∧ (photo .held [0x12]).seq = m.seq ∧
      talk.origin ∈ (photo .held [0x12]).holders) ∧
    (validate awake f = .good box 0x11 false (.reply 0x01 []) ∧ matchEntry box awake = none ∧ awake.stalled = none) := by
  simp only [AtEase]; decide

/-- A fetch that receives a chunk into buffer 0. -/
def receiving : Fetch :=
  { serial := 1, photo := 0, source := 0x12, phase := .chunks, count := 1, caption := none,
    elems := [{ id := chunk, standing := .unclaimed }], next := 0, outstanding := some .getChunk, buffer := some 0,
    more := false, extent := .absent }

theorem witness_DataMovesTheDeadline :
    let s := { asking .getChunk (.fetch 0) with catalog.fetches := put awake.catalog.fetches 0 (some receiving) }
    let f := rx box 0x71 0x40 0x11 (beBytes 4 0 ++ [0xAA])
    let g := rx box 0x71 0x40 0x11 (beBytes 4 0 ++ List.replicate 1440 0)
    (s.link.up = true ∧ s.power.station = .awake ∧ AtEase s ∧ validate s f = .good box 0x11 false (.data 0 [0xAA]) ∧
      s.link.outgoing = [asked .getChunk (.fetch 0)] ∧ (asked .getChunk (.fetch 0)).number = box.number ∧
      (asked .getChunk (.fetch 0)).target = box.tag ∧ s.catalog.fetches[(0 : FetchNo)] = some receiving ∧
      receiving.elems[receiving.next]? = some { id := chunk, standing := .unclaimed } ∧
      0 = (s.engine.buffers[(0 : BufferNo)]).bytes.length ∧ 0 + [(0xAA : Byte)].length ≤ chunk.length ∧
      (asked .getChunk (.fetch 0)).deadline ≠ s.link.ticks + 5120) ∧
    (validate (asking .getRecipe (.fetch 0)) f = .good box 0x11 false (.data 0 [0xAA]) ∧
      (asked .getRecipe (.fetch 0)).kind ≠ .getChunk) ∧
    validate s g = .good box 0x11 false (.data 0 (List.replicate 1440 0)) := by
  simp only [AtEase]; decide

theorem witness_ReplyExpiryFreesReached :
    (let s := expired replyTimer .first (asking .catalogSince .catchup)
     ExpiryDue replyTimer .first s ∧ AtEase s ∧ s.link.outgoing = asked .catalogSince .catchup :: [] ∧
      2 ^ 31 ≤ (s.link.ticks - (asked .catalogSince .catchup).deadline).toNat) ∧
    (let s := expired replyTimer .first { asking .catalogSince .catchup with link.ticks := 100 }
     ExpiryDue replyTimer .first s ∧ AtEase s ∧ s.link.outgoing = asked .catalogSince .catchup :: [] ∧
      (s.link.ticks - (asked .catalogSince .catchup).deadline).toNat < 2 ^ 31 ∧ s.link.askWait = [] ∧
      s.catalog.pending = []) := by
  exact ⟨⟨expired_due _ _ _, by unfold AtEase; decide, rfl, by decide⟩, expired_due _ _ _,
    by unfold AtEase; decide, rfl, by decide, rfl, rfl⟩

/-! ### Witnesses: timers, power -/

theorem witness_TimerOperationsSetTheRecord :
    timerMode wakeStabTimer = .twoStage ∧ timerMode beaconTimer = .periodic ∧
      (awake.timers[scrubTimer]).pending = [] ∧ (awake.timers[scrubTimer]).core.running = false ∧
      ((startTimer scrubTimer 3600 awake).timers[scrubTimer]).core.running = true ∧
      ((startTimer scrubTimer 3600 awake).timers[scrubTimer]).pending = [] ∧ (0 : Int) ≤ 0 ∧ (65535 : Int) < 65536 ∧
      (1 : Int) ≤ 65535 := by decide

/-- A running timer's record. -/
def running (n : Nat) : Timer :=
  { core := { running := true, stage := .first, remaining := n, secondCount := 3, reload := 5 }, pending := [],
    held := false }

theorem witness_TickCountsTheBases :
    let s : State := { awake with power.cycles := 32767, power.sxtFault := true, power.tickSource := .fallback,
                                  power.sxtReturn := true }
    0 = (s.power.cycles + 1) % 32768 ∧ true = (decide (0 = 0) && s.power.sxtReturn) ∧
      32 = (({ awake with power.cycles := 31 } : State).power.cycles + 1) % 32768 := by decide

theorem witness_TimerCountsDown :
    ((running 2).core.running = true ∧ (running 2).held = false ∧ 2 ≤ (running 2).core.remaining) ∧
      ((running 1).core.running = true ∧ (running 1).held = false ∧ (running 1).core.remaining = 1 ∧
        (running 1).core.stage = .first) ∧
      Timer.reset.core.running = false ∧ ({ running 1 with held := true } : Timer).held = true := by decide

/-- A station whose only other box is AWAKE. -/
def accompanied : State := peered (peer .awake) awake

theorem witness_SleepTestDecides :
    (accompanied.power.station = .awake ∧ sleepTest accompanied = true ∧ sleepTest awake = false) ∧
      ExpiryDue sleepDelayTimer .first (expired sleepDelayTimer .first accompanied) ∧
      (anotherBoxAwake awake = false ∧ awake.conf.allowLastSleeper = false) ∧
      ((∀ i : SessionNo, accompanied.sessions.table[i] = none) ∧ (∀ f : FetchNo, accompanied.catalog.fetches[f] = none) ∧
        accompanied.link.outgoing = [] ∧ (∀ p : ProxyNo, accompanied.peers.slots[p] = none) ∧
        accompanied.sessions.retire = [] ∧ accompanied.index.entries = [] ∧ accompanied.power.sxtFault = false ∧
        accompanied.peers.table[(0 : Fin 32)] = some (peer .awake) ∧ (peer .awake).box = true ∧
        (peer .awake).heard = .awake) := by
  exact ⟨by decide, expired_due _ _ _, by decide, by decide⟩

theorem witness_ButtonByState :
    ((at0 .asleep).power.station = .asleep ∧ (at0 .asleep).power.latch = []) ∧
      (2 ≤ ({ at0 .waking with power.latch := [⟨1, 1⟩, ⟨2, 1⟩] } : State).power.latch.length) ∧
      ((at0 .waking).power.station = .waking ∧ (at0 .waking).power.latch.length < 2) ∧
      ((at0 .dozing).power.station = .dozing ∧ (at0 .dozing).stalled = none) ∧
      (at0 .coldStart).power.station = .coldStart := by decide

theorem witness_ParkingGoesOn :
    ExpiryDue dozeHoldTimer .first (expired dozeHoldTimer .first (at0 .dozing)) ∧
      ((parking .hush).power.station = .parking ∧ (parking .hush).power.parkCancel = false) ∧
      ((parking .save).power.step = .save ∧ (parking .park).power.step = .park) ∧
      (let s := { parking .park with power.parkedPorts := [0, 1, 2] }
       s.power.parkedPorts.length = 3 ∧ (3 : DiskPort) ∉ s.power.parkedPorts ∧ txEmpty s = true) ∧
      ({ parking .park with power.parkCancel := true } : State).power.parkCancel = true := by
  exact ⟨expired_due _ _ _, by decide, by decide, by decide, rfl⟩

theorem witness_ParkFailedEndsParking :
    (parking .park).power.station = .parking ∧ (parking .park).power.step = .park ∧
      (parking .park).power.parkCancel = false ∧ (parking .park).stalled = none := by decide

theorem witness_FinalStepSleeps :
    (parking .final).power.station = .parking ∧ (parking .final).power.step = .final ∧ (parking .final).link.tx = [] ∧
      (parking .final).link.txWait = [] ∧ (parking .final).link.rxHeld = [] ∧ (parking .final).power.latch = [] := by
  decide

theorem witness_ListenerPassesWake :
    let s := at0 .asleep
    let f := rx client 0x03 0 0x11 [0x01]
    let g := rx client 0x04 0 0xFFFF [0x01]
    (s.link.up = true ∧ s.power.station = .asleep ∧ s.power.latch = [] ∧ 15 ≤ f.bytes.length ∧
      f.frameType = s.conf.frameType ∧ BitVec.ofNat 32 (fieldAt f.bytes 0 4) = s.conf.family ∧
      fieldAt f.bytes 8 2 = s.conf.tag.toNat ∧ f.bytes[4]? = some 0x03) ∧
    (15 ≤ g.bytes.length ∧ g.frameType = s.conf.frameType ∧
      BitVec.ofNat 32 (fieldAt g.bytes 0 4) = s.conf.family ∧ fieldAt g.bytes 8 2 = 65535 ∧
      g.bytes[4]? ≠ some 0x03) := by decide

theorem witness_WakeStabExpiries :
    (at0 .waking).power.station = .waking ∧
      ExpiryDue wakeStabTimer .first (expired wakeStabTimer .first (at0 .waking)) ∧
      (ExpiryDue wakeStabTimer .second (expired wakeStabTimer .second (at0 .waking)) ∧
        (at0 .waking).power.lockAttempt = 1) ∧
      ({ at0 .waking with power.lockAttempt := 2 } : State).power.lockAttempt = 2 :=
  ⟨rfl, expired_due _ _ _, ⟨expired_due _ _ _, rfl⟩, rfl⟩

theorem witness_LockWakesTheStation :
    let s := { at0 .waking with power.pllOn := true, power.latch := [⟨0x12, 1⟩, ⟨0x11, 0⟩] }
    (s.power.station = .waking ∧ s.power.pllOn = true ∧ s.stalled = none ∧ s.power.latch.length ≤ 2) ∧
      ({ s with power.pllOn := false } : State).power.pllOn = false := by decide

theorem witness_SxtFaultAndRestart :
    (awake.power.station = .awake ∧ awake.power.sxtFault = false) ∧
      (let s := { awake with power.sxtFault := true, power.seconds := 60 }
       s.power.sxtFault = true ∧ s.power.sxtWatched = false ∧ s.power.sxtReturn = false ∧
        60 ≤ (s.now - s.power.lastRestart).toNat) ∧
      ({ awake with power.sxtWatched := true } : State).power.sxtWatched = true := by decide

/-! ### Witnesses: peers -/

theorem witness_BeaconSendsPresence :
    ExpiryDue beaconTimer .first (expired beaconTimer .first awake) ∧ awake.power.station = .awake ∧
      awake.link.tx.length < 64 ∧
      64 ≤ ({ awake with link.tx := List.replicate 64 (txFrame false) } : State).link.tx.length :=
  ⟨expired_due _ _ _, by decide, by decide, by decide⟩

theorem witness_SilenceJudgesPeers :
    let s (p : Peer) (n : Word) : State := expired silenceTimer .first { peered p awake with power.seconds := n }
    let dozer : Peer := { peer .dozing with dozeAt := some 0 }
    (∀ p n, ExpiryDue silenceTimer .first (s p n)) ∧ (s (peer .awake) 90).peers.table[(0 : Fin 32)] = some (peer .awake) ∧
      (s (peer .awake) 90).power.station ≠ .halted ∧
      3 * (peer .awake).period ≤ ((s (peer .awake) 90).now - (peer .awake).lastHeard).toNat ∧
      ((s (peer .awake) 89).now - (peer .awake).lastHeard).toNat < 3 * (peer .awake).period ∧
      (dozer.box = true ∧ dozer.dozeAt = some 0 ∧ 3 ≤ ((s dozer 3).now - 0).toNat) ∧
      ((s dozer 2).peers.table[(0 : Fin 32)] = some dozer ∧ dozer.heard = .dozing ∧ ((s dozer 2).now - 0).toNat < 3) ∧
      ((peer .dozing).heard = .dozing ∧ (peer .dozing).dozeAt = none ∧ ({ dozer with box := false } : Peer).box = false) ∧
      (peer .asleep).heard = .asleep :=
  ⟨fun _ _ => expired_due _ _ _, by decide, by decide, by decide, by decide, by decide, by decide, by decide, rfl⟩

theorem witness_ProxyWakesThenGivesUp :
    let s := { peered (peer .asleep) awake with peers.slots := put awake.peers.slots 7 (some 0x12) }
    (s.power.station ≠ .halted ∧ s.peers.slots[(7 : ProxyNo)] = some 0x12 ∧ findPeer 0x12 s = some 0 ∧
      s.peers.table[(0 : Fin 32)] = some (peer .asleep)) ∧
      ExpiryDue (proxyTimer 7) .first (expired (proxyTimer 7) .first s) ∧
      ExpiryDue (proxyTimer 7) .second (expired (proxyTimer 7) .second s) :=
  ⟨by decide, expired_due _ _ _, expired_due _ _ _⟩

theorem witness_PresenceAndDozeMoveTheSender :
    let f := rx box 0x01 0 0xFFFF ([0x1E] ++ beBytes 4 0 ++ [0])
    let g := rx box 0x02 0 0xFFFF (List.replicate 256 0)
    let s := accompanied
    (s.link.up = true ∧ s.power.station = .awake ∧ AtEase s ∧ box.box = true ∧ box.tag ≠ s.conf.tag ∧
      findPeer box.tag s = some 0 ∧ s.peers.table[(0 : Fin 32)] = some (peer .awake) ∧ (peer .awake).proxy = .idle) ∧
    (validate s f = .good box 0xFFFF false (.presence 30 0) ∧ 0 ≤ caughtUp box.tag s) ∧
    validate s g = .good box 0xFFFF false (.doze 0) := by
  simp only [AtEase]; decide

theorem witness_WakeHeardFromTheLan :
    let f := rx box 0x03 0 0x11 [0x01]
    let g := rx box 0x03 0 0x13 [0x01]
    let other : Peer := { peer .asleep with tag := 0x13, proxy := .delay 2 }
    let s := { accompanied with peers.table := put accompanied.peers.table 1 (some other) }
    (accompanied.link.up = true ∧ accompanied.power.station = .awake ∧
      validate accompanied f = .good box 0x11 false (.wake 0x01) ∧ box.tag ≠ accompanied.conf.tag ∧
      0x11 = accompanied.conf.tag) ∧
    (validate s g = .good box 0x13 false (.wake 0x01) ∧ (0x13 : Tag) ≠ s.conf.tag ∧ (0x13 : Tag) ≠ allStations ∧
      (findPeer box.tag s).isSome ∧ (0x13 : Tag) ≠ box.tag ∧ findPeer 0x13 s = some 1 ∧
      s.peers.table[(1 : Fin 32)] = some other ∧ other.proxy = .delay 2) := by decide

/-! ### Witnesses: the chunk engine and the chunk index -/

/-- A context in a state, without a buffer. -/
def context (x : CtxState) : Context := { Context.reset with state := x, serial := 1 }

/-- A station whose context 0 is this one. -/
def cutting (c : Context) (s : State) : State := { s with engine.ctx := put s.engine.ctx 0 c }

/-- A pool with every buffer lent. -/
def noBuffers (s : State) : State :=
  { s with engine.buffers := Vector.replicate 64 { state := .lent .job, bytes := [] } }

theorem witness_ContextRequestsMoveTheContext :
    (awake.engine.ctx[(0 : SessionNo)]).state = .free ∧
      ((cutting (context .ready) awake).engine.ctx[(0 : SessionNo)]).state = .ready ∧
      (let s := cutting { context .cutting with buffer := some 3 } awake
       (s.engine.ctx[(0 : SessionNo)]).state = .cutting ∧ (s.engine.ctx[(0 : SessionNo)]).buffer = some 3 ∧
        s.engine.order = []) := by decide

theorem witness_BytesEnterOrTheContextStalls :
    let c1 := { context .cutting with buffer := some 3 }
    let c2 := { context .stalled with remainder := [0xAA] }
    let s2 := { noBuffers (cutting c2 awake) with
      engine.buffers := put (noBuffers awake).engine.buffers 5 { state := .granting, bytes := [] },
      engine.order := [.context 0, .job] }
    (AtEase (cutting c1 awake) ∧ (cutting c1 awake).engine.ctx[(0 : SessionNo)] = c1 ∧ c1.state = .cutting ∧
      c1.buffer = some 3 ∧
      cutsAt (cutting c1 awake).engine.chunkClass (c1.len + 1) (rollSum (cutting c1 awake).engine c1 0xAA) = false) ∧
    (AtEase (noBuffers (cutting (context .cutting) awake)) ∧ (context .cutting).state = .cutting ∧
      (context .cutting).buffer = none ∧ freeBuffer (noBuffers (cutting (context .cutting) awake)) = none) ∧
    (AtEase s2 ∧ s2.engine.ctx[(0 : SessionNo)] = c2 ∧ c2.state = .stalled ∧ c2.remainder = [0xAA] ∧
      s2.verify.quietDue = false ∧ (s2.engine.buffers[(5 : BufferNo)]).state = .granting ∧
      s2.engine.order = .context 0 :: [.job] ∧
      cutsAt s2.engine.chunkClass (c2.len + 1) (rollSum s2.engine c2 0xAA) = false) := by
  simp only [AtEase]; decide

/-- A claim of the chunk by session 0's object, with or without a buffer. -/
def claimed (b : Option BufferNo) : Claim :=
  { id := chunk, wanted := .one, claimant := .session 0 1 0, buffer := b }

theorem witness_ClaimHasItsOutcome :
    (AtEase awake ∧ ({ awake with index.holding := true } : State).index.holding = true) ∧
    (AtEase (indexed entry awake) ∧ (indexed entry awake).index.holding = false ∧
      findEntry (claimed none).id (indexed entry awake) = some (8, entry) ∧ (claimed none).buffer = none ∧
      entry.state = .stored) ∧
    (findEntry (claimed none).id (indexed { entry with count := 65535, state := .writing } awake) =
      some (8, { entry with count := 65535, state := .writing })) ∧
    (findEntry (claimed none).id (indexed { entry with state := .lost } awake) =
      some (8, { entry with state := .lost })) ∧
    (findEntry (claimed (some 3)).id (indexed entry awake) = some (8, entry) ∧ (claimed (some 3)).buffer = some 3 ∧
      awake.engine.order = [] ∧ ({ awake with engine.order := [.job] } : State).engine.order ≠ []) ∧
    (findEntry (claimed (some 3)).id (disks (indexed { entry with state := .doubtful, mark := true } awake)) =
        some (8, { entry with state := .doubtful, mark := true }) ∧
      entryAt 8 (disks (indexed { entry with state := .doubtful, mark := true } awake)) =
        some { entry with state := .doubtful, mark := true }) ∧
    (findEntry (claimed (some 3)).id awake = none ∧ emptySlot (claimed (some 3)).id.print awake = some 0 ∧
      ∀ e ∈ awake.index.entries, e.1 ≠ 0) := by
  simp only [AtEase]; decide

/-- An index of capacity 0, which has its overflow table alone, with all 65,536 positions in use. -/
def fullIndex : State :=
  { awake with index.capacity := 0,
               index.entries := (List.range' 0 65536).map (fun p => (p, { entry with id := longChunk })) }

theorem fullIndex_gap : ∀ n lo : Nat, firstGap lo (List.range' lo n) = lo + n := by
  intro n
  induction n with
  | zero => intro lo; rfl
  | succ n ih => intro lo; simp [List.range'_succ, firstGap, ih]; omega

theorem fullIndex_used : usedBetween 0 65536 fullIndex = List.range' 0 65536 := by
  simp only [usedBetween, fullIndex, List.map_map, Function.comp_def, List.map_id']
  rw [List.filter_eq_self]
  intro x hx
  simpa using (List.mem_range'_1.mp hx).2

theorem witness_ClaimHasItsOutcome_indexFull :
    AtEase fullIndex ∧ fullIndex.index.holding = false ∧ (claimed (some 3)).buffer = some 3 ∧
      findEntry (claimed (some 3)).id fullIndex = none ∧ emptySlot (claimed (some 3)).id.print fullIndex = none := by
  refine ⟨by unfold AtEase; decide, rfl, rfl, ?_, ?_⟩
  · simp only [findEntry, fullIndex, List.find?_eq_none, List.mem_map]
    rintro x ⟨p, -, rfl⟩
    exact (by decide : ¬ decide (longChunk = (claimed (some 3)).id) = true)
  · have cap : fullIndex.index.capacity = 0 := rfl
    have full : firstGap 0 (usedBetween 0 (0 + 65536) fullIndex) = 0 + 65536 := by
      rw [show usedBetween 0 (0 + 65536) fullIndex = List.range' 0 65536 from fullIndex_used, fullIndex_gap]
    simp only [emptySlot, cap, Nat.zero_div, full]
    rfl

theorem witness_DropAndMarkCountDown :
    let held (n : Nat) : State := indexed { entry with count := n } awake
    (AtEase awake ∧ findEntry chunk awake = none) ∧
    (AtEase (held 2) ∧ findEntry chunk (held 2) = some (8, entry) ∧ entryAt 8 (held 2) = some entry ∧ 1 < entry.count ∧
      entry.count < 65535) ∧
    (findEntry chunk (held 65535) = some (8, { entry with count := 65535 })) ∧
    (findEntry chunk (held 0) = some (8, { entry with count := 0 })) ∧
    (findEntry chunk (held 1) = some (8, { entry with count := 1 }) ∧
      entryAt 8 (held 1) = some { entry with count := 1 } ∧ entry.mark = false ∧ entry.state ≠ .writing ∧
      entry.holds = 0 ∧ entry.recopy = none) ∧
    (findEntry chunk (indexed { entry with count := 1, mark := true } awake) =
      some (8, { entry with count := 1, mark := true })) := by
  simp only [AtEase]; decide

theorem witness_ReadsHoldAndSuspicionsMove :
    let s (e : Entry) : State := indexed e awake
    (AtEase awake ∧ findEntry chunk awake = none) ∧
    (AtEase (s { entry with holds := 127 }) ∧
      findEntry chunk (s { entry with holds := 127 }) = some (8, { entry with holds := 127 }) ∧
      entry.state = .stored ∧ 127 < 128) ∧
    (findEntry chunk (s { entry with holds := 128 }) = some (8, { entry with holds := 128 })) ∧
    (findEntry chunk (s { entry with holds := 2 }) = some (8, { entry with holds := 2 })) ∧
    (findEntry chunk (s { entry with state := .doubtful }) = some (8, { entry with state := .doubtful })) := by
  simp only [AtEase]; decide

theorem witness_RecopyPlacesOrAnswers :
    let s := disks (indexed entry awake)
    let r : Recopy := { id := chunk, purpose := .addB, buffer := 7, sender := .job }
    (AtEase s ∧ findEntry r.id s = some (8, entry) ∧ entryAt 8 s = some entry ∧ entry.state = .stored ∧
      entry.recopy = none ∧ choosePlace (copyBlocks r.id.length) (entry.copyA.toList.map (·.member)) s = some 1 ∧
      s.alloc.members[(1 : DiskPort)] = some { number := 2, map := some (BlockMap.fresh 2000000) } ∧
      (BlockMap.fresh 2000000).search (copyBlocks r.id.length) = some 1572865 ∧ slotOf 2 s = some 1) ∧
    (findEntry r.id (indexed { entry with state := .writing } awake) = some (8, { entry with state := .writing })) ∧
    findEntry r.id awake = none := by
  simp only [AtEase]; decide

/-- Members 1, 2 and 3 on READY disks at ports 0, 1 and 2. -/
def threeDisks (s : State) : State :=
  { disks s with ports.port := put (disks s).ports.port 2 (port .ready),
                 alloc.members := put (disks s).alloc.members 2 (member 3) }

/-- The recopy record of an ADD B whose WRITE on member 2 is out. -/
def adding (superseded : Bool) : RecopyRec :=
  { purpose := .addB, buffer := 7, sender := .job, newA := .unwanted,
    newB := .inWrite { member := 2, first := 1572865 } false, superseded := superseded }

/-- The entry WRITING, revived while that recopy is in write, with one new copy on member 1. -/
def revived : Entry :=
  { entry with state := .writing, copyA := none, recopy := some (adding true),
               write := some { newWrite 9 .one none none (some .doubtful) with
                               newA := .inWrite { member := 1, first := 1572866 } false, issued := true } }

theorem witness_RecopyPlacesOrAnswers_again :
    let s (e : Entry) : State := threeDisks (indexed e awake)
    let places (c : RecopyRec) (e : Entry) : Option (DiskPort × Nat) :=
      (placeOne (copyBlocks chunk.length) (2 :: remainingMembers c e)
        (freeBlocks { member := 2, first := 1572865 } (copyBlocks chunk.length) (s e))).map (fun x => (x.1, x.2.1.member))
    (∀ e ∈ [revived, { entry with recopy := some (adding true) }, { entry with recopy := some (adding false) }],
      AtEase (s e) ∧ findEntry chunk (s e) = some (8, e) ∧ entryAt 8 (s e) = some e ∧
        ∃ b, e.recopy = some (adding b) ∧ places (adding b) e = some (2, 3)) ∧
    DiskResult.failed ≠ .done ∧ slotOf 3 (s revived) = some 2 := by
  simp only [AtEase]; decide

theorem test_superseded_recopy_leaves_the_revives_members :
    remainingMembers (adding true) revived = [1] ∧ remainingMembers (adding true) { revived with write := none } = [] ∧
      remainingMembers (adding false) entry = [1] := by decide

/-! ### Witnesses: disk ports -/

/-- A station with this record at port 0. -/
def ported (p : PortRec) : State := { awake with ports.port := put awake.ports.port 0 p }

/-- A READ of one block at a class. -/
def readCmd (c : ServiceClass) (first : Nat) : DiskCmd := { requester := .retirePage, cls := c, op := .read first 1 }

theorem witness_OfferByDiskState :
    (∀ o ∈ ((ported (port .ready)).ports.port[(0 : DiskPort)]).offers,
      userOf o.requester ≠ userOf (readCmd .serve 1999999).requester) ∧
    ((ported (port .faulted)).ports.port[(0 : DiskPort)]).spin = .faulted ∧
    (((ported (port .ready)).ports.port[(0 : DiskPort)]).spin = .ready ∧
      inRange ((ported (port .ready)).ports.port[(0 : DiskPort)]).capacity (readCmd .serve 1999999).op = true ∧
      ((ported (port .ready)).ports.port[(0 : DiskPort)]).queue = [] ∧
      ((ported (port .ready)).ports.port[(0 : DiskPort)]).flight = none ∧
      ((ported (port .ready)).ports.port[(0 : DiskPort)]).standby = none) ∧
    (let p := { port .standby with queue := List.replicate 31 (readCmd .serve 0) }
     p.spin = .standby ∧ (readCmd .serve 0).cls ≠ .scrub ∧ inRange p.capacity (readCmd .serve 0).op = true ∧
      p.queued < 32 ∧ 32 ≤ ({ p with queue := List.replicate 32 (readCmd .serve 0) } : PortRec).queued) ∧
    (inRange (port .ready).capacity (readCmd .store 2000000).op = false ∧
      (ported (port .ready)).power.station ≠ .coldStart) := by
  decide

theorem witness_SpinupEnds :
    (((ported (port .spinup)).ports.port[(0 : DiskPort)]).spin = .spinup ∧
      (0 : DiskPort) ∉ (ported (port .spinup)).ports.waiting ∧ (port .spinup).labelDone = true ∧
      (port .spinup).queue = [] ∧ (port .spinup).parkPending = false) ∧
    (let p := { port .spinup with watch := some 0 }
     watchOut 0 { ported p with power.seconds := 31 } = true ∧ p.spinAgain = false) ∧
    (let p := { port .spinup with spinAgain := true }
     p.spinAgain = true ∧ p.queue = [] ∧ p.offers = [] ∧ p.backlog = [] ∧ p.parkPending = false ∧
      (ported p).ckpt.current = none) := by decide

theorem witness_AttemptEnds :
    let p (again : Bool) : PortRec := { port .ready with flight := some (readCmd .serve 0, again), watch := some 0 }
    (((ported (p false)).ports.port[(0 : DiskPort)]).flight = some (readCmd .serve 0, false) ∧
      watchOut 0 { ported (p false) with power.seconds := 31 } = true ∧ (p false).spin = .ready) ∧
    ((p true).attempt = 0 ∧ ({ attempt := 7, good := true } : AttemptEnd).attempt ≠ (p true).attempt ∧
      (p true).backlog = [] ∧ (ported (p true)).power.station ≠ .coldStart ∧ (p true).queue = [] ∧ (p true).offers = [] ∧ (p true).parkPending = false ∧
      ({ p true with failures := 1 } : PortRec).failures < 2 ∧ restartsIdle (readCmd .serve 0).cls = true ∧
      restartsIdle (readCmd .scrub 0).cls = false) := by decide

theorem witness_DisksComeToRest :
    let p (q : List DiskCmd) : PortRec := { port .ready with queue := q }
    (ExpiryDue (diskIdleTimer 0) .first (expired (diskIdleTimer 0) .first (ported (p [])))) ∧
    ((p []).spin = .ready ∧ (p []).standby = none ∧ (p []).parkPending = false ∧ (p []).queued = 0 ∧
      0 < (p [readCmd .serve 0]).queued ∧ (p []).flight = none) ∧
    ((port .standby).spin = .standby ∧ (port .standby).queue = [] ∧ (port .absent).spin = .absent) ∧
    (((ported (port .spinup)).ports.port[(0 : DiskPort)]).spin = .spinup ∧
      ({ port .standby with queue := [readCmd .serve 0] } : PortRec).queue ≠ [] ∧
      ({ p [] with flight := some (readCmd .serve 0, false) } : PortRec).flight ≠ none ∧
      ({ p [] with standby := some { again := false, park := false } } : PortRec).standby ≠ none) ∧
    (ported (p [])).power.station ≠ .coldStart ∧
    ((ported (p [])).timers[diskIdleTimer 0]).core.running = false :=
  ⟨expired_due _ _ _, by decide, by decide, by decide, by decide, by decide⟩

/-! ### Witnesses: the session manager -/

/-- A registered client of tag 51H. -/
def registered : Client :=
  { tag := 0x51, quota := 0, used := 100, reserved := 50, retention := 8, lastSnapshot := 3, snapshots := [] }

/-- A BACKUP session of the client with nothing under way. -/
def session : Session :=
  { tag := 0x51, kind := .backup, state := .idle, current := none, failed := none, draft := [], reservations := 0,
    entering := none, ending := none, closing := none }

/-- A station with this session as number 2, and its client registered. -/
def serving (x : Session) (s : State) : State :=
  { s with sessions.table := put s.sessions.table 2 (some x),
           sessions.clients := put s.sessions.clients 15 (some registered) }

/-- An object under intake: 10 bytes of 20 received, one element waiting. -/
def object : CurrentObject :=
  { id := 77, serial := 4, declared := 20, received := 10, caption := none, photo := none,
    elems := [{ id := chunk, standing := .waiting }], ended := false, cut := false }

/-- The session with that object. -/
def intaking : Session := { session with state := .intake, current := some object }

theorem witness_SessionOpensAndObjectBegins :
    let taken (s : State) : State := { s with sessions.table := put (put s.sessions.table 0 (some session)) 1 (some session) }
    let full : State := { awake with sessions.table := Vector.replicate 4 (some { session with tag := 0x52 }) }
    (AtEase awake ∧ client.box = false ∧ sessionOf client.tag awake = none ∧
      awake.sessions.table[(0 : SessionNo)] = none ∧ (∀ j : SessionNo, j < 0 → awake.sessions.table[j] ≠ none) ∧
      clientOf client.tag awake = none ∧ registerPlace awake = some 0 ∧ 31 ≤ 31 ∧ (List.replicate 32 (0 : Byte)).length ≤ 32) ∧
    ((taken awake).sessions.table[(2 : SessionNo)] = none ∧ ∀ j : SessionNo, j < 2 → (taken awake).sessions.table[j] ≠ none) ∧
    (box.box = true ∧ sessionOf client.tag (serving session awake) ≠ none ∧ sessionOf client.tag full = none ∧
      ∀ j : SessionNo, full.sessions.table[j] ≠ none) ∧
    (let s := serving session awake
     AtEase s ∧ sessionOf client.tag s = some 2 ∧ s.sessions.table[(2 : SessionNo)] = some session ∧
      (∀ d ∈ session.draft, d.id ≠ 77) ∧ session.draft.length < 4096 ∧ clientOf session.tag s = some 15 ∧
      s.sessions.clients[(15 : Fin 16)] = some registered ∧ registered.quota = 0 ∧ 2 ^ 40 - 1 < 2 ^ 40) := by
  simp only [AtEase]; decide

theorem witness_SegmentsEnterTheirObject :
    let s := serving intaking awake
    let busy : Session := { intaking with entering := some client }
    let full : CurrentObject := { object with received := 20 }
    let done : CurrentObject := { object with ended := true, elems := [{ id := chunk, standing := .settled }] }
    (AtEase s ∧ s.sessions.table[(2 : SessionNo)] = some intaking ∧ intaking.current = some object ∧
      intaking.state = .intake ∧ sessionOf client.tag s = some 2 ∧ object.ended = false ∧ intaking.entering = none ∧
      [(0xAA : Byte)] ≠ [] ∧ object.received + (List.replicate 10 (0 : Byte)).length ≤ object.declared ∧
      9 < object.received) ∧
    (AtEase (serving busy awake) ∧ sessionOf client.tag (serving busy awake) = some 2 ∧ busy.entering ≠ none ∧
      (serving busy awake).link.intake = [] ∧ busy.entering = some client) ∧
    (let i : IntakeItem := { cmd := .segment client 77 10 [0xAA], standing := .offered }
     let j : IntakeItem := { cmd := .closeSession client, standing := .queued }
     let q : State := { serving busy awake with link.intake := [j, i, j] }
     AtEase q ∧ sessionOf client.tag q = some 2 ∧ i.standing ≠ .deferred ∧ q.link.intake = [j] ++ i :: [j] ∧
      ∀ k ∈ [j], k.cmd ≠ .segment client 77 10 [0xAA]) ∧
    (full.received = full.declared ∧ sessionOf client.tag (serving { intaking with current := some full } awake) = some 2) ∧
    (let y := { intaking with current := some done, ending := some client }
     AtEase (serving y awake) ∧ y.ending = some client ∧ y.kind = .backup ∧ done.ended = true ∧ done.cut = false ∧
      ∀ e ∈ done.elems, e.standing = .settled) := by
  simp only [AtEase]; decide

theorem witness_OutcomesReachTheObject :
    let s := serving intaking awake
    (AtEase s ∧ s.sessions.table[(2 : SessionNo)] = some intaking ∧ intaking.current = some object ∧
      intaking.state = .intake ∧ object.elems[0]? = some { id := chunk, standing := .waiting } ∧
      ClaimResult.hit ≠ .indexFull ∧ (5 : Word) ≠ object.serial) ∧
    ((∀ j : SessionNo, j ≠ 2 → s.sessions.table[j] = none) ∧ intaking.kind = .backup ∧ intaking.entering = none ∧
      intaking.ending = none ∧ object.ended = false ∧
      clientOf intaking.tag s = some 15 ∧ s.sessions.clients[(15 : Fin 16)] = some registered) := by
  simp only [AtEase]; decide

/-- A draft object of some settled elements. -/
def drafted (es : List ChunkId) : DraftObject :=
  { id := 77, length := 40, elems := es.map (fun c => { id := c, standing := .settled }), photo := 0, caption := none,
    turned := false }

theorem witness_SessionsLeaveTheTable :
    let s (ds : List DraftObject) : State := disks (serving { session with draft := ds } awake)
    (AtEase (s []) ∧ (s []).sessions.table[(2 : SessionNo)] = some session ∧ session.current = none ∧
      session.state = .idle ∧ sessionOf client.tag (s []) = some 2 ∧ session.entering = none ∧ session.draft = []) ∧
    (sessionOf client.tag (s [drafted [chunk]]) = some 2 ∧ clientOf session.tag (s [drafted [chunk]]) = some 15 ∧
      (s [drafted [chunk]]).sessions.clients[(15 : Fin 16)] = some registered ∧ registered.snapshots.length < 40 ∧
      registered.lastSnapshot ≠ 0xFFFFFFFF ∧ 1 ≤ (drafted [chunk]).elems.length ∧
      (drafted (List.replicate 204 chunk)).elems.length ≤ 204 ∧
      choosePlace 1 [] (s [drafted [chunk]]) = some 0 ∧
      (s [drafted [chunk]]).alloc.members[(0 : DiskPort)] = some { number := 1, map := some (BlockMap.fresh 2000000) } ∧
      (BlockMap.fresh 2000000).search 1 = some 1572865 ∧ slotOf 1 (s [drafted [chunk]]) = some 0) ∧
    ((drafted []).elems = [] ∧ registered.snapshots.length + 1 ≤ registered.retention) := by
  simp only [AtEase]; decide

theorem witness_SessionsLeaveTheTable_idle :
    ExpiryDue (sessionIdleTimer 2) .first (expired (sessionIdleTimer 2) .first (serving session awake)) :=
  expired_due _ _ _

/-- A snapshot of one object whose recipe of 300 elements lies on member 1. -/
def snapshot : Snapshot :=
  { number := 3, retiring := false, logical := 40,
    objects := [{ id := 77, length := 40, chunks := 300,
                  extent := some { place := { member := 1, first := 1572865 }, count := 300 } }] }

theorem witness_RestoreReadsAnswer :
    let k : Client := { registered with snapshots := [snapshot] }
    let o : ObjectRecord :=
      { id := 77, length := 40, chunks := 300, extent := some { place := { member := 1, first := 1572865 }, count := 300 } }
    let s := { disks awake with sessions.clients := put awake.sessions.clients 15 (some k), sessions.pageOut := true }
    (AtEase s ∧ client.box = false ∧ clientOf client.tag s = some 15 ∧ s.sessions.clients[(15 : Fin 16)] = some k ∧
      k.snapshots.find? (fun m => m.number = snapshot.number) = some snapshot ∧ snapshot.retiring = false ∧
      s.sessions.pageOut = true ∧ snapshot.objects.find? (fun y => y.id = o.id) = some o ∧ 299 < o.chunks ∧
      slotOf 1 s = some 0 ∧
      s.alloc.members[(0 : DiskPort)] = some { number := 1, map := some (BlockMap.fresh 2000000) }) ∧
    (box.box = true ∧ clientOf client.tag awake = none) := by
  simp only [AtEase]; decide

theorem witness_ChunkAnswersInFrames : AtEase awake := by unfold AtEase; decide

/-! ### Witnesses: the album catalog -/

theorem witness_AlbumRequestsAnswer :
    let s (p : Photo) : State := { disks awake with catalog.photos := [p] }
    (AtEase awake ∧ 31 ≤ 31 ∧ 31 < 32) ∧
    (AtEase (s (photo .held [0x11])) ∧ photoOf 31 500 (s (photo .held [0x11])) = some (photo .held [0x11]) ∧
      (photo .held [0x11]).state = .held ∧ 299 < 300 ∧ slotOf 1 (s (photo .held [0x11])) = some 0 ∧
      (s (photo .held [0x11])).alloc.members[(0 : DiskPort)] =
        some { number := 1, map := some (BlockMap.fresh 2000000) }) ∧
    (photoOf 31 500 (s (photo .known [0x12])) = some (photo .known [0x12]) ∧ (photo .known [0x12]).state ≠ .held ∧
      0x12 ∈ (photo .known [0x12]).holders ∧ heardOf 0x12 (s (photo .known [0x12])) ≠ some .asleep) ∧
    (client.box = false ∧ box.box = true ∧ findEntry chunk (indexed entry awake) = some (8, entry) ∧
      entry.mark = false ∧
      findEntry chunk (indexed { entry with mark := true } awake) = some (8, { entry with mark := true })) ∧
    ((0x12 : Tag) ≠ awake.conf.tag ∧ (0x11 : Tag) = awake.conf.tag) := by
  simp only [AtEase]; decide

/-- A summary of that photo's key under another origin than the box's. -/
def summary : Summary := { album := 31, id := 500, origin := 0x14, seq := 1, length := 4096 }

theorem witness_CatalogFollowsItsPeers :
    let f := rx box 0x04 0 0xFFFF ([0x01] ++ summaryBytes summary)
    let w : WantedItem := { pos := 0, due := 0 }
    let p := photo .wanted [0x12]
    let s := expired wantedTimer .first { accompanied with catalog.photos := [p], catalog.wanted := [w] }
    (AtEase accompanied ∧ accompanied.power.station = .awake ∧ accompanied.link.up = true ∧
      validate accompanied f = .good box 0xFFFF false (.holding [summary]) ∧ box.tag ≠ accompanied.conf.tag ∧
      summary.origin ≠ box.tag ∧ summaryBad summary = false ∧
      findPhoto summary.album summary.id accompanied = none ∧ positionFree accompanied = true ∧
      accompanied.catalog.wanted = [] ∧ 1 < accompanied.conf.target ∧
      ({ accompanied with report.conf := { conf with target := 1 } } : State).conf.target ≤ 1) ∧
    (let q := { accompanied with catalog.pending := [0x12] }
     q.catalog.fillDue = false ∧ q.catalog.talk = none ∧ q.catalog.pending = 0x12 :: [] ∧
      heardOf 0x12 q = some .awake ∧ q.link.outgoing = []) ∧
    (ExpiryDue wantedTimer .first s ∧ AtEase s ∧ s.catalog.wanted = [w] ∧ w.due ≤ s.now ∧
      s.catalog.photos[w.pos]? = some p ∧ holderCount p < s.conf.target ∧
      s.catalog.fetches[(0 : FetchNo)] = none ∧ p.holders.find? (fun t => heardOf t s = some .awake) = some 0x12 ∧
      s.link.outgoing = []) := by
  refine ⟨?_, by decide, expired_due _ _ _, ?_⟩ <;> simp only [AtEase] <;> decide

theorem witness_FetchesClaimTheirElements :
    let e : FetchElem := { id := chunk, standing := .waiting }
    let x : Fetch := { receiving with buffer := none, outstanding := none, elems := [e, e], next := 0 }
    let s : State := { awake with catalog.fetches := put awake.catalog.fetches 1 (some x),
                                  catalog.photos := [photo .fetching [0x12]] }
    (AtEase s ∧ s.catalog.fetches[(1 : FetchNo)] = some x ∧ x.elems[0]? = some e ∧ x.next = 0 ∧
      freeBuffer s = some 0 ∧ s.link.outgoing = [] ∧ ClaimResult.miss ≠ .needsBytes ∧ ClaimResult.miss ≠ .indexFull ∧
      x.elems[0 + 1]? = some e ∧ (2 : Word) ≠ x.serial) ∧
    (e.standing = .waiting ∧ x.phase = .chunks ∧ (∀ g : FetchNo, g ≠ 1 → s.catalog.fetches[g] = none) ∧
      x.phase ≠ .settling ∧ Settled.lostNoSpace ≠ .stored ∧ s.power.station = .awake ∧ s.now.toNat + 600 < 2 ^ 32 ∧
      (∀ a ∈ s.link.outgoing, a.asker ≠ .fetch 1) ∧ s.link.askWait = [] ∧ x.buffer = none ∧ x.extent = .absent ∧
      s.catalog.photos[x.photo]? = some (photo .fetching [0x12]) ∧ s.catalog.wanted = []) := by
  simp only [AtEase]; decide

/-! ### Witnesses: the verify and repair unit -/

/-- A reader. -/
def reader : Reader := { hdr := client, form := .restore }

/-- A record of the chunk in a phase. -/
def record (x : RecordPhase) : RepairRecord :=
  { id := chunk, phase := x, hold := false, waiters := [(reader, .serve)], bad := [], gone := [], tried := [],
    buffer := none, reading := false, settle := none }

theorem witness_VerifiedReadsBegin :
    let s := disks (indexed { entry with holds := 127 } awake)
    (AtEase s ∧ findRecord chunk s = none ∧ s.verify.quietDue = false ∧
      findEntry chunk s = some (8, { entry with holds := 127 }) ∧ 127 < 128 ∧
      chooseCopy entry.copyA entry.copyB [] s = some (.a, { member := 1, first := 1572865 }) ∧ slotOf 1 s = some 0) ∧
    (findEntry chunk (indexed { entry with state := .writing } awake) = some (8, { entry with state := .writing }) ∧
      awake.verify.records.length < 16) ∧
    (findEntry chunk awake = none ∧
      findEntry chunk (indexed { entry with state := .lost } awake) = some (8, { entry with state := .lost })) := by
  simp only [AtEase]; decide

theorem witness_RecordsClose :
    let r : RepairRecord := { record .recopying with buffer := some 4, hold := true }
    let s (r : RepairRecord) : State := { awake with verify.records := [r] }
    (AtEase (s r) ∧ (s r).verify.records = [r] ∧ r.id = chunk ∧ (s r).verify.quietDue = false ∧
      (s r).verify.talk = none ∧ (s r).verify.order = [] ∧ r.buffer = some 4 ∧ r.phase = .recopying ∧
      (s r).engine.order = [] ∧ r.hold = true ∧ RecopyResult.done ≠ .unmirrored) ∧
    (AtEase (s (record .settleWait)) ∧ (record .settleWait).id = chunk ∧ (record .settleWait).buffer = none ∧
      (record .settleWait).hold = false ∧ Settled.lostWriteFailed ≠ .stored ∧
      (record .settleWait).phase = .settleWait) ∧
    (let t : State := { disks (indexed entry awake) with verify.records := [record .settleWait] }
     AtEase t ∧ (record .settleWait).waiters = [(reader, .serve)] ∧ findEntry chunk t = some (8, entry) ∧
      entry.state = .stored ∧ entry.holds < 128 ∧ entry.copyA = some { member := 1, first := 1572865 } ∧
      copyReady { member := 1, first := 1572865 } t = true ∧ missingCopy { member := 1, first := 1572865 } t = false ∧
      slotOf 1 t = some 0 ∧ ({ record .settleWait with waiters := [] } : RepairRecord).waiters = []) := by
  simp only [AtEase]; decide

theorem witness_RepairWorkGoesOn :
    let r : RepairRecord := { record .peer with buffer := some 4 }
    let s1 : State := { accompanied with verify.records := [r], verify.order := [chunk] }
    let s2 : State := { indexed { entry with state := .doubtful } awake with
      verify.records := [record .peer], verify.order := [chunk] }
    let s3 : State := { disks (indexed { entry with mark := true } awake) with verify.mirrors := [chunk] }
    let s4 : State := { indexed entry awake with index.entries := [], verify.cursor := 1024 + 65535 }
    (AtEase s1 ∧ s1.verify.records = [r] ∧ r.id = chunk ∧ r.phase = .peer ∧ s1.verify.talk = none ∧
      s1.verify.order = [chunk] ∧ s1.verify.quietDue = false ∧ r.waiters = [(reader, .serve)] ∧
      awakeBoxes s1 = 0x12 :: [] ∧ r.tried = [] ∧ heardOf 0x12 s1 = some .awake ∧ r.buffer = some 4 ∧
      s1.link.outgoing = []) ∧
    (AtEase s2 ∧ s2.verify.records = [record .peer] ∧ awakeBoxes s2 = [] ∧ (record .peer).buffer = none ∧
      (record .peer).hold = false ∧ findEntry chunk s2 = some (8, { entry with state := .doubtful })) ∧
    (AtEase s3 ∧ s3.verify.mirrors = chunk :: [] ∧ s3.power.station = .awake ∧ s3.verify.hushed = false ∧
      s3.verify.job = none ∧ findEntry chunk s3 = some (8, { entry with mark := true }) ∧ entry.holds < 128 ∧
      entry.copyA = some { member := 1, first := 1572865 } ∧ entry.copyB = none ∧
      missingCopy { member := 1, first := 1572865 } s3 = false ∧ 2 ≤ healthyMembers s3 ∧ slotOf 1 s3 = some 0 ∧
      freeBuffer s3 = some 0) ∧
    (awake.verify.records = [] ∧ awake.verify.job = none ∧ awake.verify.mirrors = [] ∧ awake.verify.order = []) ∧
    (ExpiryDue scrubTimer .first (expired scrubTimer .first s4) ∧ s4.verify.pass = none ∧ s4.verify.scrubOut = false ∧
      s4.index.entries = [] ∧ s4.verify.cursor < s4.index.capacity + 65536) ∧
    (let e : Entry := { entry with mark := true, copyB := some { member := 2, first := 1572865 } }
     let s5 : State := expired scrubTimer .first { disks (indexed e awake) with verify.cursor := 8 }
     AtEase s5 ∧ s5.verify.pass = none ∧ s5.verify.scrubOut = false ∧ entryAt s5.verify.cursor s5 = some e ∧
      findEntry e.id s5 = some (s5.verify.cursor, e) ∧ e.holds < 128 ∧
      missingCopy { member := 1, first := 1572865 } s5 = false ∧ missingCopy { member := 2, first := 1572865 } s5 = false ∧
      copyReady { member := 1, first := 1572865 } s5 = true ∧ slotOf 1 s5 = some 0) := by
  refine ⟨?_, ?_, ?_, by decide, ⟨expired_due _ _ _, by decide⟩, ?_⟩ <;> simp only [AtEase] <;> decide

/-! ### Witnesses: checkpoints and the report -/

theorem witness_CheckpointsBegin :
    (awake.ckpt.state ≠ .halted ∧ awake.ckpt.current = none ∧ awake.stalled = none ∧ awake.ckpt.changed = false ∧
      ({ awake with ckpt.changed := true } : State).ckpt.changed = true ∧
      ImagePart.scrub = .scrub ∧ ImagePart.members ≠ .scrub ∧ (at0 .coldStart).power.station = .coldStart) ∧
    (awake.ckpt.state = .idle ∧ ({ awake with ckpt.state := .writing } : State).ckpt.state = .writing ∧
      ({ awake with ckpt.state := .halted } : State).ckpt.state = .halted) ∧
    ExpiryDue checkpointTimer .first (expired checkpointTimer .first awake) ∧
    (awake.verify.cursor = awake.ckpt.capturedCursor ∧
      ({ awake with verify.cursor := 256 } : State).verify.cursor ≠ awake.ckpt.capturedCursor) :=
  ⟨by decide, by decide, expired_due _ _ _, by decide⟩

theorem witness_FenceAndCapture :
    let c : Checkpoint := { generation := 0, image := none, members := [], closers := [.power] }
    let s : State := { disks awake with index.holding := true, ckpt.backs := [.sessions], ckpt.state := .fencing,
                                        ckpt.current := some c }
    (awake.power.station ≠ .halted ∧ awake.catalog.marksOut = 0 ∧
      0 < ({ awake with catalog.marksOut := 1 } : State).catalog.marksOut) ∧
    (({ s with ckpt.backs := [] } : State).index.holding = true ∧ ({ s with ckpt.backs := [] } : State).ckpt.backs = []) ∧
    (s.index.holding = true ∧ s.ckpt.backs = [.sessions] ∧ s.index.kept = [] ∧ s.ckpt.state = .fencing ∧
      s.ckpt.current = some c ∧
      s.alloc.members[(1 : DiskPort)] = some { number := 2, map := some (BlockMap.fresh 2000000) } ∧
      (s.ports.port[(1 : DiskPort)]).spin ≠ .faulted) ∧
    (let t : State := { indexed entry s with index.holding := true, index.kept := [claimed none] }
     t.index.holding = true ∧ t.ckpt.backs = [.sessions] ∧ t.index.kept = [claimed none] ∧ t.ckpt.shadow = [] ∧
      t.ckpt.waiters = [] ∧ t.stalled = none ∧ findEntry (claimed none).id t = some (8, entry) ∧
      entry.state = .stored ∧ (claimed none).buffer = none ∧ entry.count ≠ 65535 ∧
      findEntry (claimed none).id (indexed { entry with count := 65535 } s) = some (8, { entry with count := 65535 })) := by
  decide

theorem witness_ReportBlockAnswers :
    (awake.power.station ≠ .coldStart ∧ awake.power.station ≠ .halted ∧ awake.power.station ≠ .unconfigured) ∧
    (let s : State := { at0 .halted with report.flags := 0x41 }
     s.power.station = .halted ∧ flagSet .haltReason s = true) ∧
    ((at0 .unconfigured).power.station = .unconfigured ∧ (at0 .unconfigured).report.writing = none ∧
      fieldAt block44 6 2 ≠ 0 ∧ fieldAt block44 6 2 ≠ 65535 ∧ fieldAt block44 2 4 ≠ 0 ∧ block44.length = 44) ∧
    ({ at0 .unconfigured with report.writing := some (client, block48) } : State).report.writing =
      some (client, block48) := by decide

/-! ### Witnesses for further clauses: chunks, from the rolling sum to the settle -/

theorem witness_EngineStartValues_rollingSum :
    (worked 0x2F01).factor = windowFactor (worked 0x2F01).mult ∧ (List.replicate 49 (0 : Byte)).length - 48 = 1 :=
  ⟨rfl, by decide⟩

theorem witness_EngineStartValues_cuts :
    3 ≤ 3 ∧ (1023 < 2 ^ (0 + 10) ∧ 2 ^ (0 + 10) ≤ 1024 ∧ 4095 < 2 ^ (0 + 12)) ∧
      (2 ^ (3 + 12) ≤ 32768 ∧ 65535 < 2 ^ (3 + 13) ∧ 2 ^ (3 + 13) ≤ 65536 ∧ 131071 < 2 ^ (3 + 14) ∧
        2 ^ (3 + 14) ≤ 131072) := by decide

/-- A station whose context 2, one byte short of the class's largest chunk, serves session 2 and its object. -/
def cutReady (x : Session) : State :=
  { serving x awake with
    engine.ctx := put awake.engine.ctx 2 { context .cutting with serial := 4, len := 32767, buffer := some 63 } }

theorem witness_BytesEnterOrTheContextStalls_cut :
    let c : Context := { context .cutting with serial := 4, len := 32767, buffer := some 63 }
    let s := cutReady intaking
    let y : Session := { intaking with kind := .album 3 none, current := some { object with photo := some 1 } }
    (AtEase s ∧ s.engine.ctx[(2 : SessionNo)] = c ∧ c.state = .cutting ∧ c.buffer = some 63 ∧
      s.sessions.table[(2 : SessionNo)] = some intaking ∧ intaking.current = some object ∧ object.serial = c.serial ∧
      slotFree s = true ∧ isBackup intaking = true ∧
      cutsAt s.engine.chunkClass (c.len + 1) (rollSum s.engine c 0xAA) = true ∧ 0 < c.len) ∧
    (AtEase (cutReady y) ∧ slotFree (cutReady y) = true ∧ ({ object with photo := some 1 } : CurrentObject).photo.isSome = true) := by
  simp only [AtEase]; decide

/-- A write record on buffer 7, with these new copies. -/
def writeRec (a b : NewCopy) : WriteRec :=
  { buffer := 7, wanted := .two, newA := a, newB := b, oldA := none, oldB := none, prior := none, issued := true,
    refused := false }

/-- The chunk's entry while it is written. -/
def writing (w : WriteRec) : Entry := { entry with state := .writing, copyA := none, write := some w }

/-- Places on members 1 and 2. -/
def place1 : Place := { member := 1, first := 1572865 }
def place2 : Place := { member := 2, first := 1572865 }

theorem witness_AttemptEnds_writesSettle :
    let s (w : WriteRec) : State := disks (indexed (writing w) awake)
    let ok (w : WriteRec) : Prop := AtEase (s w) ∧ findEntry chunk (s w) = some (8, writing w) ∧
      entryAt 8 (s w) = some (writing w) ∧ (writing w).write = some w ∧ (writing w).count ≠ 0 ∧
      (writing w).mark = false ∧ (s w).engine.order = []
    ok (writeRec (.inWrite place1 false) (.inWrite place2 false)) ∧
    ok (writeRec (.inWrite place1 true) .unwanted) ∧ (writeRec (.inWrite place1 true) .unwanted).issued = true ∧
    ok (writeRec (.inWrite place1 true) (.written place2)) ∧
    ok { writeRec (.inWrite place1 false) .unwanted with oldA := some place2, prior := some .doubtful } ∧
    (let w := writeRec (.inWrite place1 false) .unwanted
     let t := freeBlocks place1 (copyBlocks chunk.length) (s w)
     ok w ∧ DiskResult.failed ≠ .done ∧ ∃ s', placeOne (copyBlocks chunk.length) [1] t = some (1, place2, s') ∧
      slotOf 2 (s w) = some 1) := by
  simp only [AtEase]
  exact ⟨by decide, by decide, rfl, by decide, by decide, by decide, by decide, _, rfl, by decide⟩

/-- The chunk of the one byte AAH. -/
def byteChunk : ChunkId := { print := printOf [0xAA], length := 1 }

/-- A record that reads copy A of that chunk into buffer 4, in an index that holds it with two copies. -/
def repairing : State :=
  let e : Entry := { entry with id := byteChunk, copyB := some place2, holds := 1 }
  { disks (indexed e awake) with
    verify.records := [{ record .localCopy with id := byteChunk, hold := true, buffer := some 4, reading := true }],
    verify.readsOut := 1 }

theorem witness_RecordsClose_localRepair :
    let r : RepairRecord := { record .localCopy with id := byteChunk, hold := true, buffer := some 4, reading := true }
    let e : Entry := { entry with id := byteChunk, copyB := some place2, holds := 1 }
    (AtEase repairing ∧ repairing.verify.records = [r] ∧ r.id = byteChunk ∧ r.phase = .localCopy ∧ r.reading = true ∧
      r.settle = none ∧ r.buffer = some 4 ∧ repairing.verify.quietDue = false ∧
      findEntry byteChunk repairing = some (8, e)) ∧
    goodBytes byteChunk .done (.bytes [0xAA, 0]) = some [0xAA] ∧
    (goodBytes byteChunk .failed .nothing = none ∧ goodBytes byteChunk .diskFault .nothing = none ∧ r.bad = [] ∧
      r.gone = [] ∧ e.copyB = some place2 ∧ missingCopy place2 repairing = false ∧ slotOf 2 repairing = some 1 ∧
      e.state = .stored) := by
  simp only [AtEase]; decide +kernel

/-! ### Witnesses for further clauses: retirement, turnover and fetches -/

/-- A client with a snapshot of two objects, of 300 elements and of none or 5, in retirement at a place. -/
def retiring (second : Option Extent) (object element : Nat) : State :=
  let o (n : Nat) (e : Option Extent) : ObjectRecord := { id := BitVec.ofNat 64 n, length := 40, chunks := 300, extent := e }
  let n : Snapshot :=
    { snapshot with retiring := true, objects := [o 1 (some { place := place1, count := 300 }), o 2 second] }
  { disks awake with
    sessions.clients := put awake.sessions.clients 15 (some { registered with snapshots := [n] }),
    sessions.retire := [{ client := 0x51, snapshot := 3, blocked := false, object := object, element := element }],
    sessions.pageOut := true }

theorem witness_RestoreReadsAnswer_retirement :
    let t (k : Nat) : RetireItem := { client := 0x51, snapshot := 3, blocked := false, object := 0, element := k }
    let e : Extent := { place := place1, count := 300 }
    (∀ k ∈ [0, 204], AtEase (retiring none 0 k) ∧ (retiring none 0 k).sessions.retire = t k :: [] ∧
      (t k).blocked = false ∧ (itemSnapshot (t k) (retiring none 0 k)).map (·.1) = some 15 ∧
      ((itemSnapshot (t k) (retiring none 0 k)).bind (fun n => n.2.objects[(t k).object]?)).bind (·.extent) = some e ∧
      memberPresent e.place.member (retiring none 0 k) = true ∧ slotOf e.place.member (retiring none 0 k) = some 0) ∧
    ((t 0).element / 204 * 204 + 204 < e.count ∧ e.count ≤ ((t 204).element / 204 + 1) * 204) ∧
    ((itemSnapshot (t 204) (retiring none 0 204)).bind (fun n => objectFrom 1 n.2.objects) = none ∧
      (itemSnapshot (t 204) (retiring (some { place := place2, count := 5 }) 0 204)).bind
        (fun n => objectFrom 1 n.2.objects) = some (1, { place := place2, count := 5 }) ∧
      memberPresent 2 (retiring (some { place := place2, count := 5 }) 0 204) = true ∧
      slotOf 2 (retiring (some { place := place2, count := 5 }) 0 204) = some 1) := by
  simp only [AtEase]; decide

/-- An ALBUM session that closes a draft of one object, turned over or not. -/
def turning (turned : Bool) : Session :=
  { session with
    kind := .album 31 (some [0x41]), state := .closing, draft := [{ drafted [chunk] with photo := 500, turned := turned }],
    reservations := if turned then 0 else 1,
    closing := some { hdr := client, extents := if turned then [.absent] else [.written { place := place1, count := 1 }],
                      failure := none, turned := false, snapshot := 0, made := [] } }

/-- A station whose only work is the next step of that session's turnover. -/
def turnover (turned : Bool) (ps : List Photo) : State :=
  { disks (serving (turning turned) awake) with mail := [.turn 2], catalog.photos := ps }

theorem witness_SessionsLeaveTheTable_turnover :
    let cl : Closing :=
      { hdr := client, extents := [.written { place := place1, count := 1 }], failure := none, turned := false,
        snapshot := 0, made := [] }
    (AtEase (turnover false []) ∧ (turnover false []).pending = [] ∧ (turnover false []).mail = [.turn 2] ∧
      (turnover false []).sessions.table[(2 : SessionNo)] = some (turning false) ∧
      (turning false).kind = .album 31 (some [0x41]) ∧ (turning false).closing = some cl ∧ cl.turned = false ∧
      cl.failure = none ∧ cl.extents.any extentBusy = false) ∧
    ((turning false).draft.findIdx? (fun o => !o.turned) = some 0 ∧ findPhoto 31 500 (turnover false []) = none ∧
      (findPhoto 31 500 (turnover false [photo .held [0x12]])).isSome = true) ∧
    (AtEase (turnover true []) ∧ (turning true).draft.findIdx? (fun o => !o.turned) = none) := by
  simp only [AtEase]; decide

/-- A fetch that has asked for its recipe's first page. -/
def paging : Fetch :=
  { receiving with phase := .recipe, count := 0, elems := [], outstanding := some .getRecipe, buffer := none }

/-- A station with this fetch in context 0, its request out, and the photo of key (31, 1234H). -/
def fetching (k : AskKind) (x : Fetch) : State :=
  { asking k (.fetch 0) with catalog.fetches := put awake.catalog.fetches 0 (some x),
                             catalog.photos := [{ photo .fetching [0x12] with id := 0x1234, extent := none }] }

/-- The box's page of that photo's one-element recipe. -/
def recipePage : RxFrame :=
  rx box 0x70 0x40 0x11 ([0x00] ++ (beBytes 4 1 ++ beBytes 6 4096 ++ [0] ++ elementBytes chunk))

/-- A fetch that has received the whole of the one-byte chunk, and its station. -/
def receivedAll : State :=
  { fetching .getChunk { receiving with elems := [{ id := byteChunk, standing := .bare }] } with
    engine.buffers := put awake.engine.buffers 0 { state := .lent (.fetch 0), bytes := [0xAA] } }

theorem witness_FetchesClaimTheirElements_answers :
    let p : Photo := { photo .fetching [0x12] with id := 0x1234, extent := none }
    let body := beBytes 4 1 ++ beBytes 6 4096 ++ [0] ++ elementBytes chunk
    let s := fetching .getRecipe paging
    (s.link.up = true ∧ s.power.station = .awake ∧ AtEase s ∧
      validate s recipePage = .good box 0x11 false (.reply 0 body) ∧ s.link.outgoing = [asked .getRecipe (.fetch 0)] ∧
      (asked .getRecipe (.fetch 0)).number = box.number ∧ (asked .getRecipe (.fetch 0)).target = box.tag ∧
      s.link.askWait = [] ∧ s.catalog.fetches[(0 : FetchNo)] = some paging ∧ s.catalog.photos[paging.photo]? = some p) ∧
    (paging.elems = [] ∧ paging.next = 0 ∧ pageHead body = some (1, 4096, none, elementBytes chunk) ∧
      4096 = p.length ∧ pageElements (elementBytes chunk) = some [chunk] ∧ chunk.print.setWidth 64 = p.id ∧
      (∀ y ∈ [chunk], 1 ≤ y.length ∧ y.length ≤ 131072) ∧ slotsUsed s + (([] : List ChunkId).length + 1) ≤ 4194304) ∧
    (validate s (rx box 0x70 0x40 0x11 [0x01]) = .good box 0x11 false (.reply 1 []) ∧ paging.buffer = none ∧
      paging.extent = .absent ∧ s.catalog.wanted = [] ∧ s.now.toNat + 600 < 2 ^ 32) ∧
    (validate receivedAll (rx box 0x70 0x40 0x11 [0x00]) = .good box 0x11 false (.reply 0 []) ∧
      (receivedAll.engine.buffers[(0 : BufferNo)]).bytes.length = byteChunk.length ∧
      printOf (receivedAll.engine.buffers[(0 : BufferNo)]).bytes = byteChunk.print) := by
  simp only [AtEase]
  refine ⟨?_, ?_, ?_, ?_⟩ <;> decide +kernel

theorem witness_FetchesClaimTheirElements_held :
    let c : FetchElem := { id := chunk, standing := .waiting }
    let x : Fetch := { receiving with phase := .settling, elems := [c], next := 1, buffer := none, outstanding := none }
    let y : Fetch := { x with phase := .extent, elems := [{ c with standing := .settled }],
                              extent := .writing place1 1 [chunk] 1 false false }
    let s (x : Fetch) : State := disks (fetching .getChunk x)
    (AtEase (s x) ∧ (s x).catalog.fetches[(0 : FetchNo)] = some x ∧ (s x).catalog.photos[x.photo]?.isSome ∧
      x.phase = .settling ∧ x.elems = [c] ∧ c.standing = .waiting ∧
      (∀ j : FetchNo, j ≠ 0 → (s x).catalog.fetches[j] = none) ∧ slotOf 1 (s x) = some 0) ∧
    (∃ s', placeOne 1 [] (s x) = some (0, place1, s')) ∧
    (AtEase (s y) ∧ (s y).catalog.fetches[(0 : FetchNo)] = some y ∧ y.phase = .extent ∧
      y.extent = .writing place1 1 [chunk] 1 false false) := by
  simp only [AtEase]
  exact ⟨by decide, ⟨_, rfl⟩, by decide⟩

/-! ### Witnesses for further clauses: checkpoints written, and cold start from them -/

/-- A member's record in a checkpoint, at a step. -/
def ckptAt (x : CkptStep) : CkptMember :=
  { number := 1, half := true, offered := 0, ended := 0, queued := 8, step := x }

/-- The checkpoint of generation 5 that writes it at slot 0, and member 2 at slot 1. -/
def ckptOf (m : CkptMember) (other : CkptStep) (closers : List Closer) : Checkpoint :=
  { generation := 5, image := some (imageForm awake), closers := closers,
    members := [some m, some { ckptAt other with number := 2 }, none, none] }

/-- A station that is writing this checkpoint. -/
def saving (c : Checkpoint) (s : State) : State := { disks s with ckpt.state := .writing, ckpt.current := some c }

theorem imagePages_bounds (n : Nat) : 1 ≤ imagePages n ∧ imagePages n ≤ 786431 := by
  unfold imagePages; omega

theorem witness_CheckpointsBegin_members :
    let c := ckptOf (ckptAt .pages) .pages []
    let s := saving c awake
    (s.stalled = none ∧ s.ckpt.current = some c ∧ c.image = some (imageForm awake) ∧
      (c.members[(0 : DiskPort).val]?).join = some (ckptAt .pages) ∧ ckptDone (some (ckptAt .pages)) = false) ∧
    ((ckptAt .pages).ended + 0 < imagePages s.index.capacity ∧ (ckptAt .pages).offered < imagePages s.index.capacity ∧
      (ckptAt .pages).queued = 8) ∧
    imagePages s.index.capacity ≤ (ckptAt .pages).ended + 786431 ∧ (4 : Word) ≠ c.generation := by
  have h := imagePages_bounds (saving (ckptOf (ckptAt .pages) .pages []) awake).index.capacity
  exact ⟨⟨rfl, rfl, rfl, rfl, rfl⟩, ⟨h.1, h.1, rfl⟩, Nat.le_trans h.2 (Nat.le_add_left _ _), by decide⟩

theorem witness_CheckpointsBegin_complete :
    ∀ x ∈ [CkptStep.failed, .succeeded],
      let c := ckptOf (ckptAt .lastFlush) x []
      let s := saving c awake
      (s.stalled = none ∧ s.ckpt.current = some c ∧ c.image.isSome = true ∧
        (c.members[(0 : DiskPort).val]?).join = some (ckptAt .lastFlush) ∧ (ckptAt .lastFlush).step = .lastFlush ∧
        c.closers = [] ∧ s.ckpt.pendingMark = false ∧ ({ s with ckpt.pendingMark := true } : State).ckpt.pendingMark = true) ∧
      (∀ j, j ≠ 0 → ckptDone ((c.members[j]?).join) = true) ∧
      (x = .failed → ∀ j, j ≠ 0 → ((c.members[j]?).join).any (fun m => m.step = .succeeded) = false) ∧
      (x = .succeeded → ((c.members[1]?).join).any (fun m => m.step = .succeeded) = true) := by
  intro x hx
  have far (j : Nat) : ((ckptOf (ckptAt .lastFlush) x []).members[j + 4]?) = none := by simp [ckptOf]
  refine ⟨⟨rfl, rfl, rfl, rfl, rfl, rfl, rfl, rfl⟩, ?_, ?_, ?_⟩
  · intro j hj
    match j, hj with
    | 1, _ => simp at hx; rcases hx with rfl | rfl <;> decide
    | 2, _ => rfl
    | 3, _ => rfl
    | j + 4, _ => rw [far]; rfl
  · rintro rfl j hj
    match j, hj with
    | 1, _ => decide
    | 2, _ => rfl
    | 3, _ => rfl
    | j + 4, _ => rw [far]; rfl
  · rintro rfl; decide

/-- A session whose close waits for its checkpoint. -/
def covered (k : SessionKind) (made : List Nat) : Session :=
  { session with kind := k, state := .closing,
                 closing := some { hdr := client, extents := [], failure := none, turned := true, snapshot := 4, made := made } }

theorem witness_SessionsLeaveTheTable_covered :
    let c (k : Closer) := ckptOf (ckptAt .lastFlush) .succeeded [k]
    let s (x : Session) : State := saving (c (.session 2)) (serving x awake)
    let x : Fetch := { paging with phase := .announcing }
    (∀ k ∈ [Closer.session 2, .fetch 0, .power, .coldStart],
      (c k).closers = [k] ∧ (c k).image.isSome = true ∧
        ((c k).members[(0 : DiskPort).val]?).join = some (ckptAt .lastFlush)) ∧
    ((s (covered .backup [])).sessions.table[(2 : SessionNo)] = some (covered .backup []) ∧
      (s (covered .backup [])).link.tx.length < 63 ∧ (s (covered .backup [])).ckpt.pendingMark = false ∧
      64 ≤ ({ s (covered .backup []) with link.tx := List.replicate 64 (txFrame false) } : State).link.tx.length) ∧
    (let t : State := { s (covered (.album 31 none) [0]) with catalog.photos := [photo .held [0x11]] }
     t.sessions.table[(2 : SessionNo)] = some (covered (.album 31 none) [0]) ∧
      t.catalog.photos[0]? = some (photo .held [0x11])) ∧
    (let t := saving (c (.fetch 0)) (fetching .getRecipe x)
     t.catalog.fetches[(0 : FetchNo)] = some x ∧ x.phase = .announcing ∧ t.catalog.photos[x.photo]?.isSome ∧
      t.catalog.wanted = [] ∧ t.link.tx.length < 64) ∧
    (let t := saving (c .power) awake
     t.ckpt.changed = false ∧ t.verify.cursor = t.ckpt.capturedCursor ∧
      ({ t with ckpt.changed := true } : State).ckpt.changed = true) ∧
    ({ saving (c .coldStart) (at0 .coldStart) with cold := .starting } : State).cold = .starting := by
  refine ⟨?_, by decide, by decide, by decide, by decide, rfl⟩
  intro k _
  exact ⟨rfl, rfl, rfl⟩

/-- A root found at a port, under a generation. -/
def rootAt (d : DiskPort) (g : Word) : FoundRoot :=
  { port := d, half := false, root := { rootFor g (imageForm awake) 1 with pageCount := 256 } }

theorem witness_RootReadsOffered_images :
    let s (x : ColdPhase) : State := { at0 .coldStart with cold := x }
    let i := imageForm { awake with index.capacity := 1024 }
    let r : FoundRoot := { port := 1, half := false, root := rootFor 5 i 1 }
    (AtEase (s (.roots 1 [])) ∧ DiskResult.failed ≠ .done ∧ (s (.roots 1 [])).cold = .roots 1 []) ∧
    (AtEase (s (.roots 1 [rootAt 0 4, rootAt 1 5])) ∧ (rootAt 1 5).root.pageCount ≤ 256 ∧
      (rootAt 0 4).root.generation < (rootAt 1 5).root.generation ∧
      ((rootAt 1 5).root.generation = (rootAt 0 5).root.generation ∧ (rootAt 0 5).port < (rootAt 1 5).port)) ∧
    (AtEase (s (.images [r] [r] 1 none false)) ∧ (s (.images [r] [r] 1 none false)).power.station = .coldStart ∧
      imageSound r.root i = true ∧ imageSound { r.root with pageCount := 0 } i = false ∧
      (s (.images [r] [r] 1 none false)).index.capacity < r.root.capacity ∧
      r.root.capacity ≤ ({ s (.images [r] [r] 1 none false) with index.capacity := 1024 } : State).index.capacity) := by
  simp only [AtEase]
  refine ⟨by decide, ⟨by decide, Nat.le_refl _, by simp [rootAt, rootFor], by simp [rootAt, rootFor]⟩,
    ⟨by decide, rfl, ?_, ?_, ?_, Nat.le_refl _⟩⟩
  · simp [imageSound, rootFor]
  · have h := imagePages_bounds (imageForm { awake with index.capacity := 1024 }).capacity
    simp only [imageSound, Bool.and_eq_false_iff, decide_eq_false_iff_not]
    exact .inl (fun e => absurd (e ▸ h.1 : 1 ≤ 0) (by decide))
  · decide

theorem witness_FenceAndCapture_loaded :
    let s : State := { awake with index.capacity := 1024 }
    IndexInv (indexed entry awake) ∧ s.index.entries = [] ∧ s.index.capacity = (indexed entry awake).index.capacity := by
  unfold IndexInv; decide

theorem witness_RootReadsOffered_makesWhole :
    let s := at0 .coldStart
    AtEase s ∧ s.power.station = .coldStart ∧ s.ckpt.state = .idle ∧ s.sessions.table = Vector.replicate 4 none ∧
      s.catalog.fetches = Vector.replicate 2 none ∧ (∀ i : Fin 16, s.sessions.clients[i] = none) ∧
      s.index.entries = [] := by
  simp only [AtEase]; decide

/-! ### Witnesses: the invariants of tables and queues, and frames between stations -/

theorem witness_TablesInvKept_index :
    IndexInv (indexed entry awake) ∧ step (indexed entry awake) = .next (indexed entry awake) :=
  ⟨by unfold IndexInv; decide, rfl⟩

/-- A station whose transmit queue is full, with one producer waiting. -/
def crowded : State :=
  { fullIntake awake with
    link.tx := List.replicate 64 (txFrame false),
    link.txWait := [{ frames := [txFrame false], deed := none, report := false }] }

theorem witness_TablesInvKept_queues :
    QueueInv crowded ∧
      step { crowded with pending := [.quiet] } = exec .quiet { crowded with pending := [] } :=
  ⟨by unfold QueueInv; decide, rfl⟩

theorem witness_TablesInvKept_leads :
    let s : State := { asking .catalogSince .catchup with catalog.talk := some { origin := 0x12, after := 0 },
                                                          catalog.fetches := put awake.catalog.fetches 0 (some receiving) }
    StationInv s ∧ LeadInv s ∧ step s = .next s :=
  ⟨by unfold StationInv; decide, by unfold LeadInv; decide, rfl⟩

theorem witness_FrameLeavesAndWaiterJoins_heard :
    let t : State := { awake with report.conf := { conf with tag := 0x12, mac := 0x020000000012 } }
    awake.power.station ≠ .unconfigured ∧ t.power.station ≠ .unconfigured ∧ t.conf.frameType = awake.conf.frameType ∧
      t.conf.family = awake.conf.family ∧ t.conf.tag = box.tag ∧ box.tag ≠ allStations ∧ awake.conf.tag ≠ 0 ∧
      awake.conf.tag ≠ allStations ∧ (List.replicate 1453 (0 : Byte)).length ≤ 1453 ∧
      (List.replicate 1440 (0 : Byte)).length ≤ 1440 ∧ chunk.length < 2 ^ 32 := by decide

/-! ### Witnesses for further clauses: labels and members, offers, and the ways back to AWAKE -/

/-- `labelled`, with the label READ of port 0 still out and these detections of port 3. -/
def labelling (three : Bool) : State :=
  { labelled with
    ports.port := put (put labelled.ports.port 0 { port .ready with label := .unread, labelDone := false }) 3
                    { PortRec.reset with detected := three } }

/-- A store 5 whose four slots hold: member 1's disk, a disk with the label of no member, a smallest disk that is FAULTED and
UNREAD, and no disk. -/
def mixed (s : State) : State :=
  { s with alloc.store := 5,
           ports.port := put (put (put s.ports.port 0 { port .ready with capacity := 1572866 }) 1
                           { port .ready with label := .blank }) 2
                           { port .faulted with label := .unread, capacity := 1572866 } }

theorem witness_RootReadsOffered_labels :
    (∀ three : Bool, (labelling three).stalled = none ∧ (labelling three).cold = .ports ∧
      ((labelling three).ports.port[(0 : DiskPort)]).detected = true) ∧
    (∀ e : DiskPort, e ≠ 0 → labelSettled (labelling true).ports.port[e] = true) ∧
    ((3 : DiskPort) ≠ 0 ∧ labelSettled (labelling false).ports.port[(3 : DiskPort)] = false) ∧
    (DiskResult.failed ≠ .done ∧ ∀ l : DiskLabel, ReadData.label none ≠ .label (some l)) := by
  exact ⟨by decide, by decide, by decide, by decide, fun l h => by cases h⟩

theorem witness_RootReadsOffered_members :
    let s := mixed awake
    let loaded : List (Option Nat) := [some 2, some 1, some 3, some 4]
    let names (d : DiskPort) (k : Nat) : Prop :=
      (s.ports.port[d]).label = .hs4 { store := s.alloc.store, member := k } ∧ 1572866 ≤ (s.ports.port[d]).capacity
    (loaded.length = 4 ∧ some 1 ∈ loaded ∧ names 0 1 ∧ ∀ e : DiskPort, e < 0 → ¬ names e 1) ∧
    (∀ d ∈ [(2 : DiskPort), 3], ∃ k, loaded[d.val]? = some (some k) ∧ (∀ e : DiskPort, ¬ names e k) ∧
      (∀ j : Nat, some j ∈ loaded → ¬ names d j)) ∧
    ((s.ports.port[(2 : DiskPort)]).capacity = 1572866 ∧ (s.ports.port[(2 : DiskPort)]).spin = .faulted ∧
      (s.ports.port[(3 : DiskPort)]).spin = .absent) := by
  refine ⟨by decide, ?_, by decide⟩
  have none (d : DiskPort) (l : PortLabel) (h : ((mixed awake).ports.port[d]).label = l) (n : ∀ x, l ≠ .hs4 x) (k : Nat) :
      ((mixed awake).ports.port[d]).label ≠ .hs4 { store := (mixed awake).alloc.store, member := k } :=
    fun e => n _ (h.symm.trans e)
  intro d hd
  simp only [List.mem_cons, List.not_mem_nil, or_false] at hd
  rcases hd with rfl | rfl
  · exact ⟨3, rfl, by decide, fun j _ h => none 2 .unread rfl (fun _ => by simp) j h.1⟩
  · exact ⟨4, rfl, by decide, fun j _ h => none 3 .none rfl (fun _ => by simp) j h.1⟩

theorem witness_RootReadsOffered_newMembers :
    let s (n : Nat) : State := { at0 .coldStart with cold := .joining [0, 1] false [], alloc.highest := n }
    let blank : State :=
      { labelled with ports.port := put (put labelled.ports.port 0 { port .ready with label := .blank, capacity := 1572865 })
                        1 { port .ready with label := .blank, capacity := 1572866 }, alloc.highest := 254 }
    (s 254).alloc.highest < 255 ∧ 255 ≤ (s 255).alloc.highest ∧
    ((s 253).stalled = none ∧ (s 253).cold = .joining (0 :: 1 :: []) false [] ∧ (s 253).alloc.highest < 254 ∧
      DiskResult.diskFault ≠ .done) ∧
    (blank.power.station = .coldStart ∧ blank.cold = .ports ∧ (∀ e : DiskPort, labelSettled blank.ports.port[e] = true) ∧
      (∀ e : DiskPort, hs4Label e blank = none) ∧ (blank.ports.port[(1 : DiskPort)]).label = .blank ∧
      1572866 ≤ (blank.ports.port[(1 : DiskPort)]).capacity ∧ blank.alloc.highest < 255 ∧
      ∀ e : DiskPort, e < 1 → (blank.ports.port[e]).label = .blank → (blank.ports.port[e]).capacity < 1572866) := by
  decide

/-- Store 5 with a blank disk at port 0, member 1's disk at port 1, where member 2 was, and no disk at ports 2 and 3. -/
def displacing : State :=
  { mixed awake with ports.port := put (put awake.ports.port 0 { port .ready with label := .blank }) 1 (port .ready) }

theorem test_displaced_member_passes_over_a_new_disk :
    ((matchMembers [some 1, some 2, none, none] displacing).alloc.members.toList.map
      (fun m => m.map (fun m => (m.number, m.map.isSome)))) = [none, some (1, true), some (2, false), none] := by
  decide

theorem witness_RootReadsOffered_displaced :
    let s := displacing
    let loaded : List (Option Nat) := [some 1, some 2, none, none]
    let names (d : DiskPort) (k : Nat) : Prop :=
      (s.ports.port[d]).label = .hs4 { store := s.alloc.store, member := k } ∧ 1572866 ≤ (s.ports.port[d]).capacity
    let matched (p : DiskPort) : Prop := ∃ m, some m ∈ loaded ∧ names p m ∧ ∀ q : DiskPort, q < p → ¬ names q m
    let spare (p : DiskPort) : Prop :=
      ¬ matched p ∧ (s.ports.port[p]).spin = .absent ∧ p ∉ newDisks (loaded.filterMap id) s
    loaded[(1 : DiskPort).val]? = some (some 2) ∧ (∀ p : DiskPort, loaded[p.val]? = some (some 2) → p = 1) ∧
      (∀ p : DiskPort, ¬ names p 2) ∧ matched 1 ∧ (∀ m, some m ∈ loaded → m ≠ 2 → ∃ p, names p m) ∧ spare 2 ∧
      ∀ p : DiskPort, p < 2 → matched p ∨ p ∈ newDisks (loaded.filterMap id) s := by
  have m1 : ∃ m, some m ∈ [some 1, some 2, none, none] ∧
      ((displacing.ports.port[(1 : DiskPort)]).label = .hs4 { store := displacing.alloc.store, member := m } ∧
        1572866 ≤ (displacing.ports.port[(1 : DiskPort)]).capacity) ∧
      ∀ q : DiskPort, q < 1 →
        ¬ ((displacing.ports.port[q]).label = .hs4 { store := displacing.alloc.store, member := m } ∧
          1572866 ≤ (displacing.ports.port[q]).capacity) := ⟨1, by decide, by decide, by decide⟩
  refine ⟨rfl, by decide, by decide, m1, ?_, ⟨?_, by decide, by decide⟩, ?_⟩
  · intro m hm ne
    have h : m = 1 := by simpa [ne] using hm
    exact h ▸ ⟨1, by decide⟩
  · rintro ⟨m, -, ⟨h, -⟩, -⟩
    exact PortLabel.noConfusion h
  · have low : ∀ p : DiskPort, p < 2 → p = 0 ∨ p = 1 := by decide
    intro p hp
    rcases low p hp with rfl | rfl
    · exact .inr (by decide)
    · exact .inl m1

/-- `displacing` with member 2 MISSING at port 0, whose blank disk is to join after number `n`. -/
def unjoined (n : Nat) (slots : Vector (Option Member) 4) : State :=
  { displacing with alloc.members := put slots 0 (some { number := 2, map := none }), alloc.highest := n,
                    cold := .joining [0, 1] false [some (2, false)] }

theorem test_member_of_a_disk_not_taken_stays_missing :
    ((notTaken [2] 0 (unjoined 255 (Vector.replicate 4 none))).alloc.members.toList.map
      (fun m => m.map (fun m => (m.number, m.map.isSome)))) = [none, none, some (2, false), none] := by
  decide

/-- A slot that a MISSING member may take, other than port 0's. -/
abbrev SpareSlot (s : State) (e : DiskPort) : Prop :=
  e ≠ 0 ∧ s.alloc.members[e] = none ∧
    ((s.ports.port[e]).spin = .absent ∨
      (1572866 ≤ (s.ports.port[e]).capacity ∧
        ((s.ports.port[e]).label ≠ .unread ∨ (s.ports.port[e]).spin = .faulted))) ∧
    e ∉ newDisks ([some (2, false)].filterMap (fun m : Option (Nat × Bool) => m.map (·.1))) s

theorem witness_RootReadsOffered_notTaken :
    let s (n : Nat) := unjoined n (Vector.replicate 4 none)
    let full := unjoined 255 (Vector.replicate 4 (member 1))
    (255 ≤ (s 255).alloc.highest ∧ (s 253).alloc.highest < 254 ∧ (s 253).stalled = none ∧
      (s 253).cold = .joining (0 :: 1 :: []) false [some (2, false)]) ∧
    (∀ n, (s n).alloc.members[(0 : DiskPort)] = some { number := 2, map := none } ∧ SpareSlot (s n) 2 ∧
      ∀ p : DiskPort, p < 2 → ¬ SpareSlot (s n) p) ∧
    (full.alloc.members[(0 : DiskPort)] = some { number := 2, map := none } ∧ ∀ e : DiskPort, ¬ SpareSlot full e) := by
  refine ⟨by decide, fun n => ⟨rfl, ?_, ?_⟩, rfl, ?_⟩
  · exact (by decide : SpareSlot (unjoined 255 (Vector.replicate 4 none)) 2)
  · exact (by decide : ∀ p : DiskPort, p < 2 → ¬ SpareSlot (unjoined 255 (Vector.replicate 4 none)) p)
  · decide

/-- A client's CLOSE_SESSION to this station. -/
def closing : RxFrame := rx client 0x14 0 0x11 []

theorem witness_ArrivalJoinsOrMeetsBusy_offers :
    let waiting : State := { awake with link.intake := [{ cmd := .closeSession client, standing := .deferred }] }
    (validate awake listing = .good client 0x11 false (.request (.listSnapshots client)) ∧
      requestOwner (.listSnapshots client) = some (client, .sessions, true)) ∧
    (validate waiting closing = .good client 0x11 false (.request (.closeSession client)) ∧
      requestOwner (.closeSession client) = some (client, .sessions, false) ∧ waiting.link.intake.length < 32 ∧
      (∀ j ∈ awake.link.intake, ∀ r p, requestOwner j.cmd = some (r, .sessions, p) → r.tag ≠ client.tag)) ∧
    (∀ s ∈ [at0 .dozing, parking .hush, parking .save, parking .park, fullIntake (at0 .dozing), fullIntake (parking .park)],
      s.link.up = true ∧ (s.power.station = .dozing ∨ (s.power.station = .parking ∧ s.power.step ≠ .final)) ∧
        validate s closing = .good client 0x11 false (.request (.closeSession client))) := by
  exact ⟨by decide, ⟨by decide, by decide, by decide, fun j h => by cases h⟩, by decide⟩

theorem witness_OwnerReadyOffersDeferred_turns :
    let i : IntakeItem := { cmd := .closeSession client, standing := .deferred }
    let j : IntakeItem := { cmd := .dropSnapshot client 3, standing := .deferred }
    let s : State := { awake with link.intake := [i, j] }
    (s.link.intake = [] ++ i :: [j] ∧ i.standing = .deferred ∧ requestOwner i.cmd = some (client, .sessions, false)) ∧
    (s.link.intake = [i] ++ j :: [] ∧ j.standing = .deferred ∧ requestOwner j.cmd = some (client, .sessions, false)) ∧
    ({ i with cmd := .listSnapshots client } : IntakeItem).standing = .deferred ∧
      requestOwner (.listSnapshots client) = some (client, .sessions, true) := by decide

/-- A station whose only request, out to the box and reached, is this asker's. -/
def overdue (a : Asker) (s : State) : State :=
  expired replyTimer .first { s with link.outgoing := [asked .getChunk a], link.ticks := 100 }

/-- A repair conversation of the chunk with these candidates left. -/
def repairTalk (ts : List Tag) : RepairConversation := { id := chunk, candidates := ts, target := some 0x13 }

theorem witness_ReplyExpiryFreesReached_fetch :
    let x : Fetch := { receiving with elems := [{ id := chunk, standing := .settled }, { id := chunk, standing := .waiting },
                                                { id := chunk, standing := .bare }] }
    let p := photo .fetching [0x12]
    let s : State := overdue (.fetch 0) { awake with catalog.fetches := put awake.catalog.fetches 0 (some x), catalog.photos := [p] }
    ExpiryDue replyTimer .first s ∧ AtEase s ∧ s.link.outgoing = asked .getChunk (.fetch 0) :: [] ∧
      (s.link.ticks - (asked .getChunk (.fetch 0)).deadline).toNat < 2 ^ 31 ∧ s.link.askWait = [] ∧ s.engine.order = [] ∧
      s.power.station = .awake ∧ s.catalog.fetches[(0 : FetchNo)] = some x ∧ s.catalog.photos[x.photo]? = some p ∧
      x.extent = .absent ∧ s.catalog.wanted = [] ∧ s.now.toNat + 600 < 2 ^ 32 :=
  ⟨expired_due _ _ _, by simp only [AtEase]; decide⟩

theorem witness_ReplyExpiryFreesReached_repair :
    let r : RepairRecord := { record .peer with buffer := some 4 }
    let s (ts : List Tag) : State :=
      overdue .repair { indexed { entry with state := .doubtful } accompanied with
        verify.records := [r], verify.talk := some (repairTalk ts) }
    (∀ ts, ExpiryDue replyTimer .first (s ts)) ∧
    (∀ ts ∈ [[(0x12 : Tag)], []], AtEase (s ts) ∧ (s ts).link.outgoing = asked .getChunk .repair :: [] ∧
      ((s ts).link.ticks - (asked .getChunk .repair).deadline).toNat < 2 ^ 31 ∧ (s ts).link.askWait = [] ∧
      (s ts).engine.order = [] ∧ (s ts).verify.talk = some (repairTalk ts) ∧ (s ts).verify.records = [r] ∧
      r.id = (repairTalk ts).id ∧ r.buffer = some 4 ∧ (s ts).verify.quietDue = false) ∧
    heardOf 0x12 (s [0x12]) = some .awake ∧
    ((s []).verify.order = [] ∧ findEntry chunk (s []) = some (8, { entry with state := .doubtful })) := by
  exact ⟨fun _ => expired_due _ _ _, by simp only [AtEase]; decide, by decide, by decide⟩

theorem witness_TimerCountsDown_modes :
    (∀ t ∈ [sleepDelayTimer, wakeStabTimer, beaconTimer], (({ awake with timers := put awake.timers t (running 1) } : State).timers[t]) = running 1) ∧
      timerMode sleepDelayTimer = .oneShot ∧ timerMode wakeStabTimer = .twoStage ∧ timerMode beaconTimer = .periodic ∧
      ({ (running 1).core with stage := .second } : TimerCore).stage = .second ∧
      (let r := (expired wakeStabTimer .second awake).timers[wakeStabTimer]
       r.pending = { Timer.reset.core with stage := .second } :: [] ∧ r.held = false) := by decide

theorem witness_ButtonByState_parking :
    ((parking .park).power.station = .parking ∧ (parking .park).power.step ≠ .final) ∧
      ((parking .final).power.latch.length < 2 ∧
        2 ≤ ({ parking .final with power.latch := [⟨1, 1⟩, ⟨2, 1⟩] } : State).power.latch.length) := by decide

theorem witness_PresenceAndDozeMoveTheSender_further :
    let f := rx box 0x01 0 0xFFFF ([0x1E] ++ beBytes 4 1 ++ [0])
    let g := rx box 0x02 0 0xFFFF (List.replicate 256 0)
    let known : State := { accompanied with catalog.origins := [{ tag := 0x12, caughtUp := 0 }], catalog.pending := [0x12] }
    let full : State := { accompanied with catalog.origins := List.replicate 32 { tag := 0x14, caughtUp := 0 } }
    let dozing (tag : Tag) (other : Option Peer) : State :=
      { accompanied with power.station := .dozing, report.conf := { conf with tag := tag },
                         peers.table := put accompanied.peers.table 1 other }
    (validate accompanied f = .good box 0xFFFF false (.presence 30 1) ∧ caughtUp box.tag accompanied < 1 ∧
      findOrigin box.tag accompanied = none ∧ accompanied.catalog.origins.length < 32 ∧ (findOrigin box.tag known).isSome ∧
      box.tag ∈ known.catalog.pending ∧ findOrigin box.tag full = none ∧ 32 ≤ full.catalog.origins.length) ∧
    ((accompanied.timers[sleepDelayTimer]).pending = [] ∧ 1 ≤ accompanied.conf.dozeSpread ∧
      (accompanied.timers[sleepDelayTimer]).core.running = false ∧
      (({ accompanied with timers := put accompanied.timers sleepDelayTimer (running 65535) } : State).timers[sleepDelayTimer]).core.running
        = true) ∧
    (∀ x ∈ [dozing 0x13 none, dozing 0x11 none, dozing 0x13 (some { peer .awake with tag := 0x14 })],
      AtEase x ∧ x.power.station = .dozing ∧ validate x g = .good box 0xFFFF false (.doze 0) ∧ box.tag ≠ x.conf.tag ∧
        findPeer box.tag x = some 0 ∧ x.peers.table[(0 : Fin 32)] = some (peer .awake) ∧ x.conf.allowLastSleeper = false) ∧
    (box.tag < (dozing 0x13 none).conf.tag ∧ ¬ box.tag < (dozing 0x11 none).conf.tag ∧
      (∀ (j : Fin 32), j ≠ 0 → (dozing 0x13 none).peers.table[j] = none)) := by
  simp only [AtEase]; decide

theorem witness_WakeHeardFromTheLan_all :
    let f := rx box 0x03 0 0x11 [0x01]
    let g := rx box 0x03 0 0xFFFF [0x01]
    let other : Peer := { peer .asleep with tag := 0x13, proxy := .delay 2 }
    let s : State := { accompanied with peers.table := put accompanied.peers.table 1 (some other) }
    (validate s g = .good box allStations false (.wake 0x01) ∧ s.conf.tag ≠ allStations ∧ (findPeer box.tag s).isSome ∧
      findPeer other.tag s = some 1 ∧ s.peers.table[(1 : Fin 32)] = some other ∧ other.proxy = .delay 2 ∧ other.tag ≠ box.tag) ∧
    (∀ x ∈ [at0 .dozing, parking .hush, parking .save, parking .park], x.link.up = true ∧
      (x.power.station = .dozing ∨ (x.power.station = .parking ∧ x.power.step ≠ .final)) ∧
      validate x f = .good box x.conf.tag false (.wake 0x01) ∧ validate x g = .good box allStations false (.wake 0x01)) ∧
    (∀ x ∈ [at0 .coldStart, at0 .halted], validate x f = .good box 0x11 false (.wake 0x01) ∧ box.tag ≠ x.conf.tag) := by
  decide

theorem witness_ContextRequestsMoveTheContext_stalled :
    (∀ x ∈ [context .cutting, { context .stalled with remainder := [0xAA] }],
      ((cutting x awake).engine.ctx[(0 : SessionNo)]) = x ∧ (x.state = .cutting ∨ x.state = .stalled) ∧ x.buffer = none) ∧
      (context .ready).state = .ready := by decide

theorem witness_ClaimHasItsOutcome_placed :
    let s := disks awake
    let one : State := { awake with ports.port := put awake.ports.port 0 (port .ready),
                                    alloc.members := put awake.alloc.members 0 (member 1) }
    let two : Claim := { claimed (some 3) with wanted := .two }
    (AtEase s ∧ s.index.holding = false ∧ (claimed (some 3)).wanted = .one ∧ findEntry chunk s = none ∧
      emptySlot chunk.print s = some 0 ∧ (∀ e ∈ s.index.entries, e.1 ≠ 0) ∧ 1 = (chunk.length + 4095) / 4096 ∧
      choosePlace 1 [] s = some 0 ∧
      s.alloc.members[(0 : DiskPort)] = some { number := 1, map := some (BlockMap.fresh 2000000) } ∧
      (BlockMap.fresh 2000000).search 1 = some 1572865 ∧ slotOf 1 s = some 0) ∧
    (two.wanted = .two ∧ ∃ v, placeOne 1 [] s = some (0, place1, v) ∧ slotOf place1.member s = some 0 ∧
      ∃ w, placeOne 1 [place1.member] v = some (1, place2, w) ∧ slotOf place2.member s = some 1) ∧
    (AtEase one ∧ emptySlot chunk.print one = some 0 ∧
      ∃ v, placeOne 1 [] one = some (0, place1, v) ∧ placeOne 1 [place1.member] v = none) ∧
    (choosePlace 1 [] awake = none ∧ awake.engine.order = []) := by
  simp only [AtEase]
  exact ⟨by decide, ⟨trivial, _, rfl, by decide, _, rfl, by decide⟩, ⟨by decide, by decide, _, rfl, by decide⟩, by decide⟩

theorem witness_ReadsHoldAndSuspicionsMove_rows :
    let s (e : Entry) : State := disks (indexed e awake)
    let last : Entry := { entry with holds := 1, released := [place2] }
    let gone : Entry := { last with count := 0 }
    (∀ x ∈ [EntryState.writing, .lost], findEntry chunk (s { entry with state := x }) = some (8, { entry with state := x }) ∧
      (x = .writing ∨ x = .lost) ∧ x ≠ .stored ∧ x ≠ .doubtful) ∧
    (AtEase (s last) ∧ findEntry chunk (s last) = some (8, last) ∧ last.holds = 1 ∧ entryAt 8 (s last) = some last ∧
      0 < last.count) ∧
    (findEntry chunk (s gone) = some (8, gone) ∧ entryAt 8 (s gone) = some gone ∧ gone.count = 0 ∧ gone.mark = false ∧
      gone.state ≠ .writing ∧ gone.recopy = none) := by
  simp only [AtEase]; decide

theorem witness_SessionsLeaveTheTable_handedOver :
    let e : ExtentState := .writing place1 1 [chunk] 1 false false
    let cl : Closing := { hdr := client, extents := [e], failure := none, turned := false, snapshot := 0, made := [] }
    let x : Session := { turning false with closing := some cl }
    let s (ts : List SessionNo) : State := { disks (serving x awake) with catalog.turnovers := ts }
    (AtEase (s []) ∧ (s []).sessions.table[(2 : SessionNo)] = some x ∧ x.kind = .album 31 (some [0x41]) ∧
      x.closing = some cl ∧ cl.turned = false ∧ cl.failure = none ∧ cl.extents = [.writing place1 1 [chunk] 1 false false]) ∧
    ((s []).catalog.turnovers = [] ∧ (s [1]).catalog.turnovers ≠ []) ∧
    ({ turnover true [] with catalog.turnovers := [2, 1] } : State).catalog.turnovers.tail.head? = some 1 := by
  simp only [AtEase]; decide

theorem witness_SessionsLeaveTheTable_coveredFull :
    let c := ckptOf (ckptAt .lastFlush) .succeeded [.session 2]
    let t (n : Nat) : State :=
      { saving c (serving (covered (.album 31 none) [0]) awake) with
        catalog.photos := [photo .held [0x11]], link.tx := List.replicate n (txFrame false) }
    (t 63).link.tx.length < 64 ∧ 64 ≤ (t 64).link.tx.length ∧
      (t 64).sessions.table[(2 : SessionNo)] = some (covered (.album 31 none) [0]) ∧ (t 64).stalled = none ∧
      (t 64).ckpt.current = some c ∧ (t 64).catalog.photos[0]? = some (photo .held [0x11]) := by
  refine ⟨by decide, by decide, rfl, rfl, rfl, rfl⟩

theorem witness_RestoreReadsAnswer_drop :
    let o : ObjectRecord := { id := 77, length := 40, chunks := 0, extent := none }
    let empty : Snapshot := { snapshot with objects := [o] }
    let s (n : Snapshot) : State :=
      { disks awake with
        sessions.clients := put awake.sessions.clients 15 (some { registered with snapshots := [n] }),
        sessions.retire := [{ client := 0x52, snapshot := 1, blocked := true, object := 0, element := 0 }] }
    (∀ n ∈ [snapshot, empty], AtEase (s n) ∧ (s n).sessions.pageOut = false ∧
      (∀ t ∈ (s n).sessions.retire, t.blocked = true) ∧ clientOf client.tag (s n) = some 15 ∧ n.retiring = false) ∧
    (objectFrom 0 snapshot.objects = some (0, { place := place1, count := 300 }) ∧
      memberPresent place1.member (s snapshot) = true ∧ slotOf place1.member (s snapshot) = some 0) ∧
    objectFrom 0 empty.objects = none := by
  simp only [AtEase]; decide

theorem witness_CatalogFollowsItsPeers_ownOrigin :
    let m : Summary := { summary with origin := 0x12, seq := 2 }
    let f := rx box 0x04 0 0xFFFF ([0x01] ++ summaryBytes m)
    let s (os : List Origin) : State := { accompanied with catalog.origins := os }
    (∀ os ∈ [[], [{ tag := (0x12 : Tag), caughtUp := 1 }], List.replicate 32 { tag := 0x14, caughtUp := 0 }],
      validate (s os) f = .good box 0xFFFF false (.holding [m]) ∧ AtEase (s os) ∧ summaryBad m = false ∧
        m.origin = box.tag ∧ findPhoto m.album m.id (s os) = none ∧ positionFree (s os) = true) ∧
    (findOrigin box.tag (s [{ tag := 0x12, caughtUp := 1 }]) = some 0 ∧ m.seq = 1 + 1 ∧ findOrigin box.tag (s []) = none ∧
      findOrigin box.tag (s (List.replicate 32 { tag := 0x14, caughtUp := 0 })) = none) := by
  simp only [AtEase]; decide

theorem witness_SessionsLeaveTheTable_waitingStart :
    let s (n : Nat) : State := { disks (serving session awake) with mail := [.deed (.idle 2 n none)] }
    (∀ n ∈ [0, 1], AtEase (s n) ∧ (s n).pending = [] ∧ (s n).sessions.table[(2 : SessionNo)] = some session) ∧
      session.current = none ∧ session.state = .idle ∧ session.entering = none ∧ session.ending = none ∧
      1 ≠ (s 1).sessions.openings[(2 : SessionNo)] ∧ 0 = (s 0).sessions.openings[(2 : SessionNo)] := by
  simp only [AtEase]; decide

/-- A META command of the checkpoint that writes generation 5. -/
def ckptCmd (r : Requester) : DiskCmd := { requester := r, cls := .metadata, op := .flush }

theorem witness_AttemptEnds_keptBack :
    let c := ckptCmd (.ckptPages 5 256)
    let p : PortRec := { port .ready with flight := some (c, true), backlog := [c, ckptCmd (.ckptFirstFlush 5)], failures := 1 }
    ((ported p).ports.port[(0 : DiskPort)]).flight = some (c, true) ∧ checkpointOf c.requester = some 5 ∧ p.failures < 2 ∧
      p.queue = [] ∧ p.offers = [] ∧ p.parkPending = false ∧ ∀ k ∈ p.backlog, checkpointOf k.requester = some 5 := by
  decide

theorem witness_CheckpointsBegin_memberFails :
    let c := ckptOf (ckptAt .pages) .pages []
    let s := saving c awake
    s.stalled = none ∧ s.ckpt.current = some c ∧ c.image.isSome = true ∧
      (c.members[(0 : DiskPort).val]?).join = some (ckptAt .pages) ∧ ckptDone (some (ckptAt .pages)) = false ∧
      1 ≠ (0 : DiskPort).val ∧ ckptDone ((c.members[1]?).join) = false ∧ DiskResult.failed ≠ .done ∧ c.generation = 5 := by
  refine ⟨rfl, rfl, rfl, rfl, rfl, by decide, rfl, by decide, rfl⟩

/-- A failed member's commands that the unit keeps back leave the port; another requester's stays (R48, R137). -/
theorem test_failed_member_is_offered_nothing :
    ((dropKept 0 5 (ported { port .ready with
      backlog := [ckptCmd (.ckptPages 5 256), readCmd .serve 0] })).ports.port[(0 : DiskPort)]).backlog = [readCmd .serve 0] := by
  decide

theorem witness_PresenceAndDozeMoveTheSender_waiting :
    let f := rx box 0x01 0 0xFFFF ([0x1E] ++ beBytes 4 1 ++ [0])
    let g := rx box 0x04 0 0xFFFF ([0x01] ++ summaryBytes summary)
    let w : Work := .cmd .catchupStart
    let s : State := { accompanied with ckpt.waiters := [w] }
    (s.link.up = true ∧ s.power.station = .awake ∧ box.box = true ∧ box.tag ≠ s.conf.tag ∧ findPeer box.tag s = some 0 ∧
      s.peers.table[(0 : Fin 32)] = some (peer .awake) ∧ (peer .awake).proxy = .idle ∧ w ∈ s.ckpt.waiters ∧
      unitOf w = .catalog) ∧
    validate s f = .good box 0xFFFF false (.presence 30 1) ∧ validate s g = .good box 0xFFFF false (.holding [summary]) := by
  decide

/-- A chunk of 4,097 bytes takes two blocks, the second filled out with 4,095 zero bytes (R28). -/
theorem test_last_block_filled_out :
    (copyWrite (.chunkWrite chunk .a) .store { chunk with length := 4097 } 3 place1).op =
      .write place1.first 2 (.buffer 3 4097 4095) := rfl

/-- A MARK on an entry marked already, at count 0, is no change (R19, R24, R27). -/
theorem test_second_mark_is_no_change :
    (takeMark chunk (indexed { entry with mark := true, count := 0 } awake)).ckpt = awake.ckpt := by decide

/-- A condemnation from within other work waits behind a claim of the entry that waits for a shadow slot (R19, R136). -/
theorem test_condemnation_waits_behind_claim :
    (noGoodLocal chunk { indexed { entry with state := .doubtful } awake with
      ckpt.waiters := [.cmd (.claim { id := chunk, wanted := .one, claimant := .session 2 4 0, buffer := none })] }).stalled =
        some .shadow := by decide

/-- The hash's start words are the fractional parts of the square roots of the first eight primes (FIPS 180-4; log 7). -/
theorem test_start_words_are_roots : RunningPrint.start.words = (shaPrimes.take 8).map (rootWord 2) := by decide +kernel

end Sys2Proof.Tests
end

section
/-! PROOFS. The sleep test and what each of its two triggers does in AWAKE (R164 to R167). -/

namespace Sys2Proof.Machine

/-! ### Timers that stand, and timers replaced -/

theorem OtherTimersSame.trans {ps qs : List TimerNo} {s t u : State} (h : OtherTimersSame ps s t)
    (k : OtherTimersSame qs t u) : OtherTimersSame (ps ++ qs) s u := by
  intro i hi
  obtain ⟨hp, hq⟩ : i ∉ ps ∧ i ∉ qs := by simpa using hi
  rw [k i hq, h i hp]

theorem OtherTimersSame.mono {ps qs : List TimerNo} {s u : State} (h : OtherTimersSame ps s u) (k : ps ⊆ qs) :
    OtherTimersSame qs s u := fun t ht => h t fun hp => ht (k hp)

/-- A timer that is not among those touched stays stopped. -/
theorem TimerStopped.of_others {ts : List TimerNo} {t : TimerNo} {s u : State} (h : TimerStopped t s)
    (k : OtherTimersSame ts s u) (ht : t ∉ ts) : TimerStopped t u := by
  unfold TimerStopped
  rw [k t ht]
  exact h

theorem withTimers_frame (ts : Vector Timer 25) (s : State) : ChangesOnly [.timers] s { s with timers := ts } := by
  intro p hp
  cases p <;> first | exact absurd (by decide) hp | rfl

/-- An expiry that is due is taken: its timer's record loses the expiry, and every other timer stands (R183). -/
theorem takeExpiry_due_others {t : TimerNo} {stage : Stage} {s : State} (h : ExpiryDue t stage s) :
    ∃ ts, takeExpiry t stage s = some { s with timers := ts } ∧ OtherTimersSame [t] s { s with timers := ts } := by
  refine ⟨_, takeExpiry_due h, fun i hi => ?_⟩
  exact put_other _ _ _ _ (by simpa using hi)

/-! ### The conditions of the sleep test -/

/-- What a table holds stands at one of its places. -/
theorem mem_toList_iff_place {α : Type} {n : Nat} {v : Vector α n} {x : α} : x ∈ v.toList ↔ ∃ i : Fin n, v[i] = x := by
  rw [Vector.mem_toList_iff, Vector.mem_iff_getElem, Fin.exists_iff]
  rfl

/-- Every place of a table is free. -/
theorem all_isNone_iff {α : Type} {n : Nat} (v : Vector (Option α) n) :
    v.toList.all (·.isNone) = true ↔ ∀ i : Fin n, v[i] = none := by
  simp only [List.all_eq_true, Option.isNone_iff_eq_none, mem_toList_iff_place, forall_exists_index,
    forall_apply_eq_imp_iff]

theorem indexAtRest_iff (s : State) :
    indexAtRest s = true ↔ ∀ e ∈ s.index.entries, e.2.state ≠ .writing ∧ e.2.recopy = none := by
  simp [indexAtRest]

/-- The query's YES has a witness in the peer table (R154). -/
theorem anotherBoxAwake_iff (s : State) :
    anotherBoxAwake s = true ↔
      ∃ (i : Fin 32) (e : Peer), s.peers.table[i] = some e ∧ e.box = true ∧ e.heard = .awake := by
  have isYes : anotherBoxAwake s = true ↔ ∃ tag, tag ∈ awakeBoxes s := by
    simp [anotherBoxAwake, List.eq_nil_iff_forall_not_mem]
  rw [isYes]
  constructor
  · rintro ⟨tag, listed⟩
    obtain ⟨p, hp, hsome⟩ := List.mem_filterMap.mp listed
    obtain ⟨i, hi⟩ := mem_toList_iff_place.mp hp
    split at hsome
    next e =>
      split at hsome
      next hawake => exact ⟨i, e, hi, hawake⟩
      next => cases hsome
    next => cases hsome
  · rintro ⟨i, e, he, hbox, hawake⟩
    exact ⟨e.tag, List.mem_filterMap.mpr ⟨some e, mem_toList_iff_place.mpr ⟨i, he⟩, by simp [hbox, hawake]⟩⟩

/-- The sleep test is the conjunction of R165's eight conditions. -/
theorem sleepTest_iff (s : State) :
    sleepTest s = true ↔
      (∀ i : SessionNo, s.sessions.table[i] = none) ∧ (∀ f : FetchNo, s.catalog.fetches[f] = none) ∧
        s.link.outgoing = [] ∧ (∀ p : ProxyNo, s.peers.slots[p] = none) ∧ (∀ t ∈ s.sessions.retire, t.blocked = true) ∧
        (∀ e ∈ s.index.entries, e.2.state ≠ .writing ∧ e.2.recopy = none) ∧ s.power.sxtFault = false ∧
        ((∃ (i : Fin 32) (e : Peer), s.peers.table[i] = some e ∧ e.box = true ∧ e.heard = .awake) ∨
          s.conf.allowLastSleeper = true) := by
  have retired : s.sessions.retire.all (·.blocked) = true ↔ ∀ t ∈ s.sessions.retire, t.blocked = true := List.all_eq_true
  simp only [sleepTest, Bool.and_eq_true, Bool.or_eq_true, Bool.not_eq_true', all_isNone_iff, List.isEmpty_iff, retired,
    indexAtRest_iff, anotherBoxAwake_iff, and_assoc]

/-! ### The entry into DOZING -/

/-- An announcement reads nothing of the station state but whether it is UNCONFIGURED (R186, R198). -/
theorem announceFrame_dozing {s : State} (h : s.power.station = .awake) (kind : Byte) (payload : List Byte) :
    announceFrame { s with power.station := .dozing } kind payload = announceFrame s kind payload := by
  simp [announceFrame, frame, h, State.conf]

theorem sendDoze_frame (s : State) : ChangesOnly [.timers, .link] s (sendDoze s) :=
  .trans ((stopTimer_frame _ _).mono (by decide)) ((transmit_frame _ _).mono (by decide))

theorem sendDoze_stopped (s : State) : TimerStopped beaconTimer (sendDoze s) := stopTimer_stopped beaconTimer s

theorem sendDoze_others (s : State) : OtherTimersSame [beaconTimer] s (sendDoze s) := stopTimer_others beaconTimer s

/-- The state in which the DOZE is asked for: SLEEP_DELAY stopped, the station DOZING (R167). -/
def dozeBegun (s : State) : State := { stopTimer sleepDelayTimer s with power.station := .dozing }

theorem enterDozing_eq (s : State) : enterDozing s = startTimer dozeHoldTimer 2048 (sendDoze (dozeBegun s)) := rfl

theorem dozeBegun_frame (s : State) : ChangesOnly [.power, .timers] s (dozeBegun s) := by
  intro p hp
  cases p <;> first | exact absurd (by decide) hp | rfl

theorem dozeBegun_stopped (s : State) : TimerStopped sleepDelayTimer (dozeBegun s) := stopTimer_stopped sleepDelayTimer s

theorem dozeBegun_others (s : State) : OtherTimersSame [sleepDelayTimer] s (dozeBegun s) :=
  stopTimer_others sleepDelayTimer s

@[simp] theorem enterDozing_station (s : State) : (enterDozing s).power.station = .dozing := rfl

theorem enterDozing_frame (s : State) : ChangesOnly [.power, .timers, .link] s (enterDozing s) :=
  ((dozeBegun_frame s).mono (by decide)).step
    ((sendDoze_frame _).step (startTimer_frame dozeHoldTimer 2048 0 _) (by decide)) (by decide)

/-- The DOZE of the station as it was in AWAKE, with its digest, is what goes to the transmit queue (R153, R167). -/
theorem enterDozing_hands {s : State} (h : s.power.station = .awake) :
    Hands [announceFrame s 0x02 (digestBytes (ownDigest s))] s (enterDozing s) := by
  have link : (enterDozing s).link = handFrames [announceFrame s 0x02 (digestBytes (ownDigest s))] s.link := by
    rw [← announceFrame_dozing h]
    rfl
  exact ⟨by rw [link], by rw [link]⟩

/-- SLEEP_DELAY and BEACON stop, DOZE_HOLD starts, and no other timer is touched (R167). -/
theorem enterDozing_timers (s : State) :
    TimerStopped sleepDelayTimer (enterDozing s) ∧ TimerStopped beaconTimer (enterDozing s) ∧
      TimerStarted dozeHoldTimer 2048 (enterDozing s) ∧
      OtherTimersSame [sleepDelayTimer, beaconTimer, dozeHoldTimer] s (enterDozing s) := by
  have hold : OtherTimersSame [dozeHoldTimer] (sendDoze (dozeBegun s)) (enterDozing s) :=
    startTimer_others dozeHoldTimer 2048 0 _
  have doze := sendDoze_others (dozeBegun s)
  refine ⟨?_, ?_, startTimer_started dozeHoldTimer 2048 0 _, ((dozeBegun_others s).trans doze).trans hold⟩
  · exact ((dozeBegun_stopped s).of_others doze (by decide)).of_others hold (by decide)
  · exact (sendDoze_stopped _).of_others hold (by decide)

/-! ### The triggers of the sleep test -/

/-- What makes the station take the sleep test: a SLEEP_DELAY expiry that is due, or a button press (R165, R166). -/
def SleepTrigger (c : Instr) (s : State) : Prop :=
  (c = .sleepDelayExpiry ∧ ExpiryDue sleepDelayTimer .first s) ∨ c = .buttonPress

/-- In AWAKE either trigger makes the sleep test, with no timer but SLEEP_DELAY touched before it (R165, R166). -/
theorem exec_sleepTrigger {c : Instr} {s : State} (h : s.power.station = .awake) (hc : SleepTrigger c s) :
    ∃ ts, exec c s = .next (makeSleepTest { s with timers := ts }) ∧
      OtherTimersSame [sleepDelayTimer] s { s with timers := ts } := by
  rcases hc with ⟨rfl, due⟩ | rfl
  · obtain ⟨ts, taken, others⟩ := takeExpiry_due_others due
    refine ⟨ts, ?_, others⟩
    show execSleepDelayExpiry s = _
    simp [execSleepDelayExpiry, taken, h]
  · refine ⟨s.timers, ?_, fun _ _ => rfl⟩
    show execButtonPress s = _
    simp [execButtonPress, h]

theorem makeSleepTest_passed {s : State} (h : sleepTest s = true) : makeSleepTest s = enterDozing s := by
  simp [makeSleepTest, h]

theorem makeSleepTest_refused {s : State} (h : sleepTest s = false) : makeSleepTest s = startSleepDelay s := by
  simp [makeSleepTest, h]

/-- The sleep test asks nothing of the timers (R165). -/
theorem sleepTest_withTimers (ts : Vector Timer 25) (s : State) :
    sleepTest { s with timers := ts } = sleepTest s := rfl

/-- Settles O22: either trigger makes the sleep test (`exec_sleepTrigger`), a pass is `enterDozing` and a refusal
`startSleepDelay`; each condition that alone refuses is one conjunct of `sleepTest_iff` failing. -/
theorem sleepTestDecides : Obligations.SleepTestDecides := by
  refine ⟨fun c s awake trigger => ?_, fun s => ?_⟩
  · obtain ⟨ts, run, others⟩ := exec_sleepTrigger awake trigger
    refine ⟨_, run, fun passed => ?_, fun refused => ?_⟩
    · rw [makeSleepTest_passed ((sleepTest_withTimers ts s).trans passed)]
      obtain ⟨delay, beacon, hold, rest⟩ := enterDozing_timers { s with timers := ts }
      exact ⟨rfl, delay, beacon, hold, enterDozing_hands (s := { s with timers := ts }) awake,
        (others.trans rest).mono (by decide),
        ((withTimers_frame ts s).mono (by decide)).trans (enterDozing_frame _)⟩
    · rw [makeSleepTest_refused ((sleepTest_withTimers ts s).trans refused)]
      exact ⟨startTimer_started _ _ _ _, (others.trans (startTimer_others _ _ _ _)).mono (by decide),
        (withTimers_frame ts s).trans (startTimer_frame _ _ _ _)⟩
  · refine ⟨fun alone mayNot => ?_, fun i session => ?_, fun f busy => ?_, fun fault => ?_, fun e he writing => ?_,
      sleepTest_iff s⟩
    all_goals
      refine Bool.eq_false_iff.mpr fun passed => ?_
      obtain ⟨sessions, fetches, -, -, -, entries, healthy, company⟩ := (sleepTest_iff s).mp passed
    · rw [← anotherBoxAwake_iff, alone, mayNot] at company
      simp at company
    · exact session (sessions i)
    · exact busy (fetches f)
    · simp [fault] at healthy
    · exact (entries e he).1 writing

end Sys2Proof.Machine
end

section
/-! PROOFS. What START, STOP and EXTEND make of the record of their timer (R181, R182). -/

namespace Sys2Proof.Machine

/-! ### Counts -/

/-- A count of 0 or below becomes 1 (R181). -/
theorem clampCount_low {n : Int} (h : n ≤ 0) : clampCount n = 1 := if_pos (by omega)

/-- A count above 65,535 becomes 65,535 (R181). -/
theorem clampCount_high {n : Int} (h : 65535 < n) : clampCount n = 65535 := by
  rw [clampCount, if_neg (by omega), if_pos h]

/-- A count within 1..65,535 stands (R181). -/
theorem clampCount_within {n : Int} (low : 1 ≤ n) (high : n ≤ 65535) : clampCount n = n.toNat := by
  rw [clampCount, if_neg (by omega), if_neg (by omega)]

/-- A count raised by at least 1 only saturates: it cannot lie below 1 (R182). -/
theorem clampCount_add {n : Nat} (r : Nat) (h : 1 ≤ n) : clampCount (r + n) = min 65535 (r + n) := by
  by_cases high : (65535 : Int) < r + n
  · rw [clampCount_high high]
    omega
  · rw [clampCount_within (by omega) (by omega)]
    omega

/-! ### The record of the timer named -/

theorem startTimer_record (t : TimerNo) (n m : Int) (s : State) :
    (startTimer t n s m).timers[t] = (s.timers[t]).start (timerMode t) n m := put_self _ _ _

theorem stopTimer_record (t : TimerNo) (s : State) : (stopTimer t s).timers[t] = (s.timers[t]).stop := put_self _ _ _

theorem extendTimer_record (t : TimerNo) (n : Int) (s : State) :
    (extendTimer t n s).timers[t] = (s.timers[t]).extend n := put_self _ _ _

theorem extendTimer_others (t : TimerNo) (n : Int) (s : State) : OtherTimersSame [t] s (extendTimer t n s) :=
  fun _ h => put_other _ _ _ _ (by simpa using h)

/-- With no expiry pending an operation meets the record as it stands (R184). -/
theorem Timer.met_of_no_expiry {x : Timer} (h : x.pending = []) : x.met = x.core := by
  rw [Timer.met, h]

/-- EXTEND on a running timer with no expiry pending (R182). -/
theorem Timer.extend_running {x : Timer} {n : Nat} (h : x.pending = []) (hn : 1 ≤ n) (runs : x.core.running = true) :
    (x.extend n).core = { x.core with remaining := min 65535 (x.core.remaining + n) } := by
  rw [Timer.extend, Timer.met_of_no_expiry h, if_pos runs, clampCount_add _ hn]

/-- EXTEND does nothing to a stopped timer with no expiry pending (R182). -/
theorem Timer.extend_stopped {x : Timer} (n : Int) (h : x.pending = []) (stopped : x.core.running = false) :
    x.extend n = x := by
  rw [Timer.extend, Timer.met_of_no_expiry h, if_neg (by simp [stopped])]

/-- Settles O19: each operation completes and rewrites its timer's record alone, as `Timer.start`, `Timer.stop` and
`Timer.extend` have it; the clamp is `clampCount` below, above and within its range. -/
theorem timerOperationsSetTheRecord : Obligations.TimerOperationsSetTheRecord := by
  refine fun t s => ⟨fun count second => ?start, ?stop, fun n free hn => ?extend⟩
  case start =>
    refine ⟨startTimer t count s second, rfl, startTimer_started _ _ _ _, ?held, fun two => ?second,
      fun periodic => ?reload, fun n => ⟨clampCount_low, clampCount_high, fun low high => ?within⟩,
      startTimer_others _ _ _ _, startTimer_frame _ _ _ _⟩
    case held => rw [startTimer_record, Timer.start]
    case second => rw [startTimer_record, Timer.start, if_pos two]
    case reload => rw [startTimer_record, Timer.start, if_pos periodic]
    case within => rw [clampCount_within low high, Int.toNat_of_nonneg (by omega)]
  case stop =>
    refine ⟨stopTimer t s, rfl, stopTimer_stopped t s, ?stage, ?held, stopTimer_others t s, stopTimer_frame t s⟩
    all_goals rw [stopTimer_record, Timer.stop]
  case extend =>
    refine ⟨extendTimer t n s, rfl, ?_, ?_, extendTimer_others t n s, extendTimer_frame t n s⟩
    all_goals rw [extendTimer_record]
    · exact Timer.extend_running free hn
    · exact Timer.extend_stopped n free

end Sys2Proof.Machine
end
